-- ==== Sys2Proof/Word.lean ====
section
/-! DEFINITION. The widths of the machine (spec/00_scope.md R11, R13, R14): bytes, words, and the fields of an
instruction word. Nothing here computes. -/

namespace Sys2Proof

/-- An 8-bit value: a V register, a timer, SP, a byte of memory (R11, R100). -/
abbrev Byte := BitVec 8

/-- A 16-bit value: PC, I, a stack slot, an instruction word (R11, R300). -/
abbrev Word := BitVec 16

/-- A register index nibble, `x` or `y` of an instruction: every value 0..15 names a register (R303). -/
abbrev Reg := BitVec 4

/-- A 4-bit immediate `n`, or a nibble of a word (R301). -/
abbrev Nibble := BitVec 4

/-- A 12-bit address immediate `nnn` (R301). -/
abbrev Addr := BitVec 12

end Sys2Proof
end

