-- ==== Sys2Proof/Syntax.lean ====
section
/-! DEFINITION. The instruction set: one constructor per row of spec/opcode_table.json (spec/30_encoding.md R304),
with the fields of the word as its arguments (R301). -/

namespace Sys2Proof

/-- An instruction. `x` and `y` are register indices, `kk` an 8-bit, `n` a 4-bit and `nnn` a 12-bit immediate. -/
inductive Instr where
  /-- 00E0 (R700) -/
  | cls
  /-- 00EE (R401) -/
  | ret
  /-- 1nnn (R402) -/
  | jp (nnn : Addr)
  /-- 2nnn (R403) -/
  | call (nnn : Addr)
  /-- 3xkk (R450) -/
  | seVxKk (x : Reg) (kk : Byte)
  /-- 4xkk (R451) -/
  | sneVxKk (x : Reg) (kk : Byte)
  /-- 5xy0 (R452) -/
  | seVxVy (x y : Reg)
  /-- 6xkk (R500) -/
  | ldVxKk (x : Reg) (kk : Byte)
  /-- 7xkk (R501) -/
  | addVxKk (x : Reg) (kk : Byte)
  /-- 8xy0 (R502) -/
  | ldVxVy (x y : Reg)
  /-- 8xy1 (R503) -/
  | orVxVy (x y : Reg)
  /-- 8xy2 (R504) -/
  | andVxVy (x y : Reg)
  /-- 8xy3 (R505) -/
  | xorVxVy (x y : Reg)
  /-- 8xy4 (R506) -/
  | addVxVy (x y : Reg)
  /-- 8xy5 (R507) -/
  | subVxVy (x y : Reg)
  /-- 8xy6 (R508); `y` is ignored by the core and kept here so that the word can be written back -/
  | shrVx (x y : Reg)
  /-- 8xy7 (R509) -/
  | subnVxVy (x y : Reg)
  /-- 8xyE (R510); `y` as for `shrVx` -/
  | shlVx (x y : Reg)
  /-- 9xy0 (R453) -/
  | sneVxVy (x y : Reg)
  /-- 9xy1 (R511) -/
  | gtVxVy (x y : Reg)
  /-- 9xy2 (R512) -/
  | gteVxVy (x y : Reg)
  /-- 9xy3 (R513) -/
  | ltVxVy (x y : Reg)
  /-- 9xy4 (R514) -/
  | lteVxVy (x y : Reg)
  /-- Annn (R600) -/
  | ldi (nnn : Addr)
  /-- Bnnn (R404) -/
  | jpV0 (nnn : Addr)
  /-- Cxkk (R515) -/
  | rnd (x : Reg) (kk : Byte)
  /-- Dxyn (R701) -/
  | drw (x y : Reg) (n : Nibble)
  /-- Ex9E (R454) -/
  | skp (x : Reg)
  /-- ExA1 (R455) -/
  | sknp (x : Reg)
  /-- Fx07 (R650) -/
  | ldVxDt (x : Reg)
  /-- Fx0A (R653) -/
  | getkey (x : Reg)
  /-- Fx15 (R651) -/
  | ldDtVx (x : Reg)
  /-- Fx18 (R652) -/
  | ldStVx (x : Reg)
  /-- Fx1E (R601) -/
  | addi (x : Reg)
  /-- Fx29 (R602) -/
  | ldsprt (x : Reg)
  /-- Fx33 (R603) -/
  | ldbcd (x : Reg)
  /-- Fx55 (R604) -/
  | dumpreg (x : Reg)
  /-- Fx65 (R605) -/
  | ldreg (x : Reg)
  deriving DecidableEq, Repr

end Sys2Proof
end

