-- ==== Sys2Proof/WellFormed.lean ====
section
/-! DEFINITION. Well-formedness. Every value of every operand field is legal (spec/30_encoding.md R303), and the operand
types of Instr hold exactly the values of their fields, so every Instr is well formed; what can be ill formed is a WORD:
one that matches no row of the opcode table (R304, R306). The table stands here as data, row for row as
spec/opcode_table.json has it, apart from the decoder, so that the two can be held against each other. -/

namespace Sys2Proof

/-- A row of the decode table R304: a word matches it when its bits under `mask` are those of `code`. -/
structure OpcodeRow where
  /-- the row's mnemonic in spec/opcode_table.json -/
  mnemonic : String
  mask : Word
  code : Word
  deriving DecidableEq, Repr

/-- The word matches the row (R15: a literal hex digit matches only itself). -/
def OpcodeRow.matchesWord (r : OpcodeRow) (w : Word) : Bool := w &&& r.mask == r.code

/-- The rows with op 0 to 7. -/
def opcodeTableLow : List OpcodeRow :=
  [⟨"cls", 0xFFFF, 0x00E0⟩, ⟨"ret", 0xFFFF, 0x00EE⟩, ⟨"jp_nnn", 0xF000, 0x1000⟩, ⟨"call_nnn", 0xF000, 0x2000⟩,
   ⟨"se_Vx__kk", 0xF000, 0x3000⟩, ⟨"sne_Vx__kk", 0xF000, 0x4000⟩, ⟨"se_Vx__Vy", 0xF00F, 0x5000⟩,
   ⟨"ld_Vx__kk", 0xF000, 0x6000⟩, ⟨"add_Vx__kk", 0xF000, 0x7000⟩]

/-- The rows with op 8 and 9. -/
def opcodeTableMid : List OpcodeRow :=
  [⟨"ld_Vx__Vy", 0xF00F, 0x8000⟩, ⟨"or_Vx__Vy", 0xF00F, 0x8001⟩, ⟨"and_Vx__Vy", 0xF00F, 0x8002⟩,
   ⟨"xor_Vx__Vy", 0xF00F, 0x8003⟩, ⟨"add_Vx__Vy", 0xF00F, 0x8004⟩, ⟨"sub_Vx__Vy", 0xF00F, 0x8005⟩,
   ⟨"shr_Vx", 0xF00F, 0x8006⟩, ⟨"subn_Vx__Vy", 0xF00F, 0x8007⟩, ⟨"shl_Vx", 0xF00F, 0x800E⟩,
   ⟨"sne_Vx__Vy", 0xF00F, 0x9000⟩, ⟨"gt_Vx__Vy", 0xF00F, 0x9001⟩, ⟨"gte_Vx__Vy", 0xF00F, 0x9002⟩,
   ⟨"lt_Vx__Vy", 0xF00F, 0x9003⟩, ⟨"lte_Vx__Vy", 0xF00F, 0x9004⟩]

/-- The rows with op A to F. -/
def opcodeTableHigh : List OpcodeRow :=
  [⟨"ldi_nnn", 0xF000, 0xA000⟩, ⟨"jp_V0__nnn", 0xF000, 0xB000⟩, ⟨"rnd_Vx__kk", 0xF000, 0xC000⟩,
   ⟨"drw_Vx__Vy__n", 0xF000, 0xD000⟩, ⟨"skp_Vx", 0xF0FF, 0xE09E⟩, ⟨"sknp_Vx", 0xF0FF, 0xE0A1⟩,
   ⟨"ld_Vx__dt", 0xF0FF, 0xF007⟩, ⟨"getkey_Vx", 0xF0FF, 0xF00A⟩, ⟨"ld_dt__Vx", 0xF0FF, 0xF015⟩,
   ⟨"ld_st__Vx", 0xF0FF, 0xF018⟩, ⟨"addi_Vx", 0xF0FF, 0xF01E⟩, ⟨"ldsprt_Vx", 0xF0FF, 0xF029⟩,
   ⟨"ldbcd_Vx", 0xF0FF, 0xF033⟩, ⟨"dumpreg_Vx", 0xF0FF, 0xF055⟩, ⟨"ldreg_Vx", 0xF0FF, 0xF065⟩]

/-- The opcode table, 38 rows (R304). -/
def opcodeTable : List OpcodeRow := opcodeTableLow ++ opcodeTableMid ++ opcodeTableHigh

/-- The word is an instruction's word: it matches a row of the table (R304); every other word is illegal (R306). -/
def Word.wellFormed (w : Word) : Bool := opcodeTable.any (fun r => r.matchesWord w)

/-- Every instruction is well formed, because every value of every operand field is legal (R303: "every value is
legal"). One line per shape of operands. -/
def Instr.wellFormed : Instr → Bool
  | .cls | .ret => true
  | .jp _ | .call _ | .ldi _ | .jpV0 _ => true
  | .seVxKk _ _ | .sneVxKk _ _ | .ldVxKk _ _ | .addVxKk _ _ | .rnd _ _ => true
  | .seVxVy _ _ | .sneVxVy _ _ | .ldVxVy _ _ | .orVxVy _ _ | .andVxVy _ _ | .xorVxVy _ _ => true
  | .addVxVy _ _ | .subVxVy _ _ | .subnVxVy _ _ | .shrVx _ _ | .shlVx _ _ => true
  | .gtVxVy _ _ | .gteVxVy _ _ | .ltVxVy _ _ | .lteVxVy _ _ => true
  | .drw _ _ _ => true
  | .skp _ | .sknp _ | .ldVxDt _ | .getkey _ | .ldDtVx _ | .ldStVx _ => true
  | .addi _ | .ldsprt _ | .ldbcd _ | .dumpreg _ | .ldreg _ => true

/-- The row of the table an instruction stands for, as the table gives its mask and code. -/
def Instr.row : Instr → OpcodeRow
  | .cls => ⟨"cls", 0xFFFF, 0x00E0⟩
  | .ret => ⟨"ret", 0xFFFF, 0x00EE⟩
  | .jp _ => ⟨"jp_nnn", 0xF000, 0x1000⟩
  | .call _ => ⟨"call_nnn", 0xF000, 0x2000⟩
  | .seVxKk _ _ => ⟨"se_Vx__kk", 0xF000, 0x3000⟩
  | .sneVxKk _ _ => ⟨"sne_Vx__kk", 0xF000, 0x4000⟩
  | .seVxVy _ _ => ⟨"se_Vx__Vy", 0xF00F, 0x5000⟩
  | .ldVxKk _ _ => ⟨"ld_Vx__kk", 0xF000, 0x6000⟩
  | .addVxKk _ _ => ⟨"add_Vx__kk", 0xF000, 0x7000⟩
  | .ldVxVy _ _ => ⟨"ld_Vx__Vy", 0xF00F, 0x8000⟩
  | .orVxVy _ _ => ⟨"or_Vx__Vy", 0xF00F, 0x8001⟩
  | .andVxVy _ _ => ⟨"and_Vx__Vy", 0xF00F, 0x8002⟩
  | .xorVxVy _ _ => ⟨"xor_Vx__Vy", 0xF00F, 0x8003⟩
  | .addVxVy _ _ => ⟨"add_Vx__Vy", 0xF00F, 0x8004⟩
  | .subVxVy _ _ => ⟨"sub_Vx__Vy", 0xF00F, 0x8005⟩
  | .shrVx _ _ => ⟨"shr_Vx", 0xF00F, 0x8006⟩
  | .subnVxVy _ _ => ⟨"subn_Vx__Vy", 0xF00F, 0x8007⟩
  | .shlVx _ _ => ⟨"shl_Vx", 0xF00F, 0x800E⟩
  | .sneVxVy _ _ => ⟨"sne_Vx__Vy", 0xF00F, 0x9000⟩
  | .gtVxVy _ _ => ⟨"gt_Vx__Vy", 0xF00F, 0x9001⟩
  | .gteVxVy _ _ => ⟨"gte_Vx__Vy", 0xF00F, 0x9002⟩
  | .ltVxVy _ _ => ⟨"lt_Vx__Vy", 0xF00F, 0x9003⟩
  | .lteVxVy _ _ => ⟨"lte_Vx__Vy", 0xF00F, 0x9004⟩
  | .ldi _ => ⟨"ldi_nnn", 0xF000, 0xA000⟩
  | .jpV0 _ => ⟨"jp_V0__nnn", 0xF000, 0xB000⟩
  | .rnd _ _ => ⟨"rnd_Vx__kk", 0xF000, 0xC000⟩
  | .drw _ _ _ => ⟨"drw_Vx__Vy__n", 0xF000, 0xD000⟩
  | .skp _ => ⟨"skp_Vx", 0xF0FF, 0xE09E⟩
  | .sknp _ => ⟨"sknp_Vx", 0xF0FF, 0xE0A1⟩
  | .ldVxDt _ => ⟨"ld_Vx__dt", 0xF0FF, 0xF007⟩
  | .getkey _ => ⟨"getkey_Vx", 0xF0FF, 0xF00A⟩
  | .ldDtVx _ => ⟨"ld_dt__Vx", 0xF0FF, 0xF015⟩
  | .ldStVx _ => ⟨"ld_st__Vx", 0xF0FF, 0xF018⟩
  | .addi _ => ⟨"addi_Vx", 0xF0FF, 0xF01E⟩
  | .ldsprt _ => ⟨"ldsprt_Vx", 0xF0FF, 0xF029⟩
  | .ldbcd _ => ⟨"ldbcd_Vx", 0xF0FF, 0xF033⟩
  | .dumpreg _ => ⟨"dumpreg_Vx", 0xF0FF, 0xF055⟩
  | .ldreg _ => ⟨"ldreg_Vx", 0xF0FF, 0xF065⟩

end Sys2Proof
end

