-- ==== Sys2Proof/Decode.lean ====
section
/-! DEFINITION. The decoder (spec/30_encoding.md R301, R304, R305, R306), total on any bytes and rejecting by name, and after
it the encoder, written from the bit layout of R301 and the patterns of R304. -/

namespace Sys2Proof

/-- `w[15:12]`, the major opcode (R301). -/
def wordOp (w : Word) : Nibble := w.extractLsb' 12 4
/-- `w[11:8]` (R301). -/
def wordX (w : Word) : Reg := w.extractLsb' 8 4
/-- `w[7:4]` (R301). -/
def wordY (w : Word) : Reg := w.extractLsb' 4 4
/-- `w[3:0]` (R301). -/
def wordN (w : Word) : Nibble := w.extractLsb' 0 4
/-- `w[7:0]` (R301). -/
def wordKk (w : Word) : Byte := w.extractLsb' 0 8
/-- `w[11:0]` (R301). -/
def wordNnn (w : Word) : Addr := w.extractLsb' 0 12

/-- The word fetched from two bytes, the byte at the lower address in bits 15:8 (spec/20_memory.md R213). -/
def wordOfBytes (hi lo : Byte) : Word := hi ++ lo
/-- The byte of a word stored at the lower address (R213, R300). -/
def wordHi (w : Word) : Byte := w.extractLsb' 8 8
/-- The byte of a word stored at the higher address (R213, R300). -/
def wordLo (w : Word) : Byte := w.extractLsb' 0 8

/-- Why bytes are no instruction. -/
inductive DecodeError where
  /-- fewer than the two bytes of an instruction (R300) -/
  | truncated
  /-- the word matches no row of the decode table (R306) -/
  | illegal (w : Word)
  deriving DecidableEq, Repr

/-- Op 0: the whole word is compared with 00E0 and 00EE (R305). -/
def decodeOp0 (w : Word) : Except DecodeError Instr :=
  if w = 0x00E0 then .ok .cls
  else if w = 0x00EE then .ok .ret
  else .error (.illegal w)

/-- Op 5 is legal only with n = 0 (R305, R306). -/
def decodeOp5 (w : Word) : Except DecodeError Instr :=
  if wordN w = 0 then .ok (.seVxVy (wordX w) (wordY w)) else .error (.illegal w)

/-- Op 8, selected on n (R304, R305). -/
def decodeOp8 (w : Word) : Except DecodeError Instr :=
  if wordN w = 0x0 then .ok (.ldVxVy (wordX w) (wordY w))
  else if wordN w = 0x1 then .ok (.orVxVy (wordX w) (wordY w))
  else if wordN w = 0x2 then .ok (.andVxVy (wordX w) (wordY w))
  else if wordN w = 0x3 then .ok (.xorVxVy (wordX w) (wordY w))
  else if wordN w = 0x4 then .ok (.addVxVy (wordX w) (wordY w))
  else if wordN w = 0x5 then .ok (.subVxVy (wordX w) (wordY w))
  else if wordN w = 0x6 then .ok (.shrVx (wordX w) (wordY w))
  else if wordN w = 0x7 then .ok (.subnVxVy (wordX w) (wordY w))
  else if wordN w = 0xE then .ok (.shlVx (wordX w) (wordY w))
  else .error (.illegal w)

/-- Op 9, selected on n (R304, R305). -/
def decodeOp9 (w : Word) : Except DecodeError Instr :=
  if wordN w = 0x0 then .ok (.sneVxVy (wordX w) (wordY w))
  else if wordN w = 0x1 then .ok (.gtVxVy (wordX w) (wordY w))
  else if wordN w = 0x2 then .ok (.gteVxVy (wordX w) (wordY w))
  else if wordN w = 0x3 then .ok (.ltVxVy (wordX w) (wordY w))
  else if wordN w = 0x4 then .ok (.lteVxVy (wordX w) (wordY w))
  else .error (.illegal w)

/-- Op E, selected on kk (R304, R305). -/
def decodeOpE (w : Word) : Except DecodeError Instr :=
  if wordKk w = 0x9E then .ok (.skp (wordX w))
  else if wordKk w = 0xA1 then .ok (.sknp (wordX w))
  else .error (.illegal w)

/-- Op F, selected on kk (R304, R305). -/
def decodeOpF (w : Word) : Except DecodeError Instr :=
  if wordKk w = 0x07 then .ok (.ldVxDt (wordX w))
  else if wordKk w = 0x0A then .ok (.getkey (wordX w))
  else if wordKk w = 0x15 then .ok (.ldDtVx (wordX w))
  else if wordKk w = 0x18 then .ok (.ldStVx (wordX w))
  else if wordKk w = 0x1E then .ok (.addi (wordX w))
  else if wordKk w = 0x29 then .ok (.ldsprt (wordX w))
  else if wordKk w = 0x33 then .ok (.ldbcd (wordX w))
  else if wordKk w = 0x55 then .ok (.dumpreg (wordX w))
  else if wordKk w = 0x65 then .ok (.ldreg (wordX w))
  else .error (.illegal w)

/-- The decoder of one word: it selects on `op` first (R305). -/
def decodeWord (w : Word) : Except DecodeError Instr :=
  if wordOp w = 0x0 then decodeOp0 w
  else if wordOp w = 0x1 then .ok (.jp (wordNnn w))
  else if wordOp w = 0x2 then .ok (.call (wordNnn w))
  else if wordOp w = 0x3 then .ok (.seVxKk (wordX w) (wordKk w))
  else if wordOp w = 0x4 then .ok (.sneVxKk (wordX w) (wordKk w))
  else if wordOp w = 0x5 then decodeOp5 w
  else if wordOp w = 0x6 then .ok (.ldVxKk (wordX w) (wordKk w))
  else if wordOp w = 0x7 then .ok (.addVxKk (wordX w) (wordKk w))
  else if wordOp w = 0x8 then decodeOp8 w
  else if wordOp w = 0x9 then decodeOp9 w
  else if wordOp w = 0xA then .ok (.ldi (wordNnn w))
  else if wordOp w = 0xB then .ok (.jpV0 (wordNnn w))
  else if wordOp w = 0xC then .ok (.rnd (wordX w) (wordKk w))
  else if wordOp w = 0xD then .ok (.drw (wordX w) (wordY w) (wordN w))
  else if wordOp w = 0xE then decodeOpE w
  else decodeOpF w

/-- The decoder of a stream of bytes, big-endian (R213, R300): the instruction and the bytes after it. -/
def decode : List Byte → Except DecodeError (Instr × List Byte)
  | hi :: lo :: rest =>
    match decodeWord (wordOfBytes hi lo) with
    | .ok i => .ok (i, rest)
    | .error e => .error e
  | _ => .error .truncated

/-- A word of the shape `[ op:4 | x:4 | y:4 | n:4 ]` (R301). -/
def encodeXyn (op : Nibble) (x y : Reg) (n : Nibble) : Word := op ++ x ++ y ++ n
/-- A word of the shape op, x, kk (R301). -/
def encodeXkk (op : Nibble) (x : Reg) (kk : Byte) : Word := op ++ x ++ kk
/-- A word of the shape op, nnn (R301). -/
def encodeNnn (op : Nibble) (nnn : Addr) : Word := op ++ nnn

/-- The word of an instruction (R301, R304). -/
def encode : Instr → Word
  | .cls => 0x00E0
  | .ret => 0x00EE
  | .jp nnn => encodeNnn 0x1 nnn
  | .call nnn => encodeNnn 0x2 nnn
  | .seVxKk x kk => encodeXkk 0x3 x kk
  | .sneVxKk x kk => encodeXkk 0x4 x kk
  | .seVxVy x y => encodeXyn 0x5 x y 0x0
  | .ldVxKk x kk => encodeXkk 0x6 x kk
  | .addVxKk x kk => encodeXkk 0x7 x kk
  | .ldVxVy x y => encodeXyn 0x8 x y 0x0
  | .orVxVy x y => encodeXyn 0x8 x y 0x1
  | .andVxVy x y => encodeXyn 0x8 x y 0x2
  | .xorVxVy x y => encodeXyn 0x8 x y 0x3
  | .addVxVy x y => encodeXyn 0x8 x y 0x4
  | .subVxVy x y => encodeXyn 0x8 x y 0x5
  | .shrVx x y => encodeXyn 0x8 x y 0x6
  | .subnVxVy x y => encodeXyn 0x8 x y 0x7
  | .shlVx x y => encodeXyn 0x8 x y 0xE
  | .sneVxVy x y => encodeXyn 0x9 x y 0x0
  | .gtVxVy x y => encodeXyn 0x9 x y 0x1
  | .gteVxVy x y => encodeXyn 0x9 x y 0x2
  | .ltVxVy x y => encodeXyn 0x9 x y 0x3
  | .lteVxVy x y => encodeXyn 0x9 x y 0x4
  | .ldi nnn => encodeNnn 0xA nnn
  | .jpV0 nnn => encodeNnn 0xB nnn
  | .rnd x kk => encodeXkk 0xC x kk
  | .drw x y n => encodeXyn 0xD x y n
  | .skp x => encodeXkk 0xE x 0x9E
  | .sknp x => encodeXkk 0xE x 0xA1
  | .ldVxDt x => encodeXkk 0xF x 0x07
  | .getkey x => encodeXkk 0xF x 0x0A
  | .ldDtVx x => encodeXkk 0xF x 0x15
  | .ldStVx x => encodeXkk 0xF x 0x18
  | .addi x => encodeXkk 0xF x 0x1E
  | .ldsprt x => encodeXkk 0xF x 0x29
  | .ldbcd x => encodeXkk 0xF x 0x33
  | .dumpreg x => encodeXkk 0xF x 0x55
  | .ldreg x => encodeXkk 0xF x 0x65

/-- The bytes of an instruction in the order of their addresses: high byte first (R213, R346). -/
def encodeBytes (i : Instr) : List Byte := [wordHi (encode i), wordLo (encode i)]

/-- The word whose low `nbits` bits are `w`, every bit above them 0. -/
def tableWord (nbits w : Nat) : Word := BitVec.ofNat 16 (w % 2 ^ nbits)

/-- The instruction the decoder reads from an opcode-table word, laid out as the hardware stores it. -/
def decodeTableWord (nbits w : Nat) : Option Instr :=
  match decode [wordHi (tableWord nbits w), wordLo (tableWord nbits w)] with
  | .ok (i, _) => some i
  | .error _ => none

end Sys2Proof
end

