-- ==== Sys2Proof/Config.lean ====
section
/-! DEFINITION. What an implementation fixes (spec/00_scope.md R11, R12) and the free values: constants with no body,
so that nothing can be proved of what they are. -/

namespace Sys2Proof

/-- `MEM_SIZE`: addresses 0x000-0xFFF exist (R11, R200). -/
abbrev Config.memSize : Nat := 0x1000

/-- `LOAD_BASE`: the program's load address and the PC at reset (R11). -/
abbrev Config.loadBase : Nat := 0x200

/-- `ROM_MAX`: the longest image the host may load (R11, R910). -/
abbrev Config.romMax : Nat := 0xE00

/-- `FONT_BASE` (R11). -/
abbrev Config.fontBase : Nat := 0x000

/-- `GLYPH_BYTES`: the bytes of one glyph (R11). -/
abbrev Config.glyphBytes : Nat := 5

/-- The open parameters of R12, "a model takes them as arguments of its configuration". A State carries its own
(log 4), so every statement about every State holds for every configuration. -/
structure Config.Params where
  /-- `FONT`: the 80 glyph bytes (R902). -/
  font : Vector Byte 80
  /-- `ADD_IMM_SETS_VF`: whether 7xkk writes its carry into VF (R501). -/
  addImmSetsVf : Bool
  /-- `SUB_EQ_FLAG`: the flag of 8xy5 and 8xy7 on equal operands, true for 1 (R507, R509). -/
  subEqFlag : Bool
  /-- `ST_COUNTS_DOWN`: whether the tick decrements ST (R821). -/
  stCountsDown : Bool
  /-- `ODD_PC_FAULTS`: whether a fetch at an odd PC faults (R112, R214). -/
  oddPcFaults : Bool
  deriving DecidableEq, Repr

/-- The default `FONT` of R903. PRESUMED (log 5): the spec marks these bytes as general knowledge, not of its source. -/
def Config.defaultFont : Vector Byte 80 :=
  #v[0xF0, 0x90, 0x90, 0x90, 0xF0,
     0x20, 0x60, 0x20, 0x20, 0x70,
     0xF0, 0x10, 0xF0, 0x80, 0xF0,
     0xF0, 0x10, 0xF0, 0x10, 0xF0,
     0x90, 0x90, 0xF0, 0x10, 0x10,
     0xF0, 0x80, 0xF0, 0x10, 0xF0,
     0xF0, 0x80, 0xF0, 0x90, 0xF0,
     0xF0, 0x10, 0x20, 0x40, 0x40,
     0xF0, 0x90, 0xF0, 0x90, 0xF0,
     0xF0, 0x90, 0xF0, 0x10, 0xF0,
     0xF0, 0x90, 0xF0, 0x90, 0x90,
     0xE0, 0x90, 0xE0, 0x90, 0xE0,
     0xF0, 0x80, 0x80, 0x80, 0xF0,
     0xE0, 0x90, 0x90, 0x90, 0xE0,
     0xF0, 0x80, 0xF0, 0x80, 0xF0,
     0xF0, 0x80, 0xF0, 0x80, 0x80]

/-- The defaults of R12 (decisions D5, D13, D19, D26, D33 of spec/92_eei_decisions.md). -/
def Config.defaults : Config.Params where
  font := Config.defaultFont
  addImmSetsVf := false
  subEqFlag := false
  stCountsDown := false
  oddPcFaults := true

/-! Free values. Each is read at the model's step counter, so each step meets a fresh one. -/

/-- The random byte of a step for which the host has lined up no input (R140; log 3). -/
opaque Config.freeRand8 : Nat → Byte

/-- The key vector of such a step, bit k for key k (R141; log 3). -/
opaque Config.freeKeys : Nat → BitVec 16

/-- The key event of such a step (R142; log 3). -/
opaque Config.freeKeyEvent : Nat → Option (BitVec 4)

/-- V0..VF after a fault, unspecified by R803 (log 2), as are the values of the next eight constants. -/
opaque Config.unspecV : Nat → Vector Byte 16
opaque Config.unspecPc : Nat → Word
opaque Config.unspecI : Nat → Word
opaque Config.unspecDt : Nat → Byte
opaque Config.unspecSt : Nat → Byte
opaque Config.unspecSp : Nat → Byte
opaque Config.unspecStack : Nat → Vector Word 16
opaque Config.unspecFb : Nat → Vector (Vector Bool 32) 64
/-- The byte of memory at an address after a fault (R803; log 2). -/
opaque Config.unspecMem : Nat → Nat → Byte

/-- What a pop reads from a slot index beyond the 16 slots. No run reaches it (SP is 0..16, R120), and the spec gives
it no value (log 9). -/
opaque Config.freeStackSlot : Nat → Word

end Sys2Proof
end

