-- ==== Sys2Proof/Machine/State.lean ====
section
/-! DEFINITION. The state of the core, plain data holding every piece of state of spec/10_state.md and spec/20_memory.md,
and its reset value (R160, R900-R904). The operations on it stand in Machine/Memory.lean and Machine/Ops.lean. -/

namespace Sys2Proof.Machine

/-- The fault causes of spec/60_exceptions.md R801, in the order of their codes 0..7. -/
inductive Cause where
  /-- no fault recorded -/
  | none
  /-- raised by a fetched word that matches no row of R304 -/
  | illegalOpcode
  /-- raised by 2nnn with SP > 15 -/
  | stackOverflow
  /-- raised by 00EE with SP = 0 -/
  | stackUnderflow
  /-- raised by a byte access at an address >= 0x1000: fetch, Dxyn, Fx33, Fx55, Fx65 -/
  | memRange
  /-- raised by a fetch at an odd PC when ODD_PC_FAULTS -/
  | misalignedFetch
  /-- raised by Ex9E and ExA1 with Vx > 15 -/
  | keyRange
  /-- raised by Fx29 with Vx > 15 -/
  | fontRange
  deriving DecidableEq, Repr

/-- The fault-status register STATUS (R131). -/
structure Status where
  halted : Bool
  cause : Cause
  faultPc : Word
  faultWord : Word
  faultAddr : Word
  deriving DecidableEq, Repr

/-- The inputs of one step (R140, R141, R142): the ports `rand8`, `keys` (bit k for key k) and `key_event`. -/
structure Inputs where
  rand8 : Byte
  keys : BitVec 16
  keyEvent : Option (BitVec 4)
  deriving DecidableEq, Repr

/-- FB[px][py]: 64 columns of 32 pixels, true for on (R130). -/
abbrev Framebuffer := Vector (Vector Bool 32) 64

/-- Memory: the cells that differ from their reset contents, addresses strictly rising (Machine/Memory.lean). -/
abbrev Memory := List Host.Cell

/-- The state of the machine. -/
structure State where
  /-- V0..VF; VF (index 15) is also the flag register (R100, R101) -/
  v : Vector Byte 16
  /-- the program counter (R110) -/
  pc : Word
  /-- the index register I (R113) -/
  i : Word
  /-- the delay timer (R114) -/
  dt : Byte
  /-- the sound timer (R115) -/
  st : Byte
  /-- the stack pointer: the number of return addresses held, 0..16 (R120) -/
  sp : Byte
  /-- the call stack (R121) -/
  stack : Vector Word 16
  /-- the framebuffer (R130) -/
  fb : Framebuffer
  /-- the 4096 bytes of memory (R200) -/
  mem : Memory
  /-- the fault-status register (R131) -/
  status : Status
  /-- MODEL: the parameters of R12; no step changes them (log 4) -/
  cfg : Config.Params
  /-- MODEL: the inputs the host has lined up for the coming steps; when there is none a step's inputs are free values
  (R140-R142, R913; log 3) -/
  supplied : List Inputs
  /-- MODEL: the number of steps run, the index at which free values are read (log 3) -/
  drawn : Nat
  deriving DecidableEq, Repr

/-- The faults of Host.Outcome: none. A fatal condition of this core is not a stop outside the machine but an entry the
spec describes (R800): STATUS is written and every later step changes nothing (R332), so it is a next state (log 1). -/
inductive Fault where
  deriving DecidableEq, Repr

/-- The refusals of Host.Outcome. -/
inductive Refusal where
  /-- Raised by no one: every instruction of the table has its meaning. It is the name under which an instruction without
  a meaning would be refused; safe, since nothing is claimed of such a step. -/
  | notModelled (mnemonic : String)
  deriving DecidableEq, Repr

/-- The reset state under given parameters (R160, R900-R904). Memory lists nothing: an unlisted address reads as its
reset contents, FONT below 0x50 and 0 above (R901, R902). -/
def State.resetWith (cfg : Config.Params) : State where
  v := Vector.replicate 16 0
  pc := 0x200
  i := 0
  dt := 0
  st := 0
  sp := 0
  stack := Vector.replicate 16 0
  fb := Vector.replicate 64 (Vector.replicate 32 false)
  mem := []
  status := { halted := false, cause := .none, faultPc := 0, faultWord := 0, faultAddr := 0 }
  cfg := cfg
  supplied := []
  drawn := 0

/-- The machine right after reset, with the default parameters of R12. -/
def State.reset : State := State.resetWith Config.defaults

end Sys2Proof.Machine
end

