-- ==== Sys2Proof/Machine/Memory.lean ====
section
/-! DEFINITION. Memory as data: what an unlisted address reads as, reading and writing one byte, and the canonical form
(spec/20_memory.md R200, R201, R220; spec/70_reset_and_hazards.md R901, R902). The range check of MemRead and MemWrite
(R210, R211) is in Machine/Ops.lean. -/

namespace Sys2Proof.Machine

/-- What an address that no write has changed reads as: its reset contents, FONT at 0x000-0x04F and 0 elsewhere (R901,
R902). -/
def Memory.unlisted (font : Vector Byte 80) (a : Nat) : Byte :=
  if h : a < 80 then font[a] else 0

/-- The byte listed at an address. -/
def Memory.lookup : Memory → Nat → Option Byte
  | [], _ => none
  | c :: m, a => if c.1 = a then some c.2 else Memory.lookup m a

/-- The byte at an address: the one last written, or the reset contents (R220). -/
def Memory.read (font : Vector Byte 80) (m : Memory) (a : Nat) : Byte :=
  (Memory.lookup m a).getD (Memory.unlisted font a)

/-- List a byte at an address, keeping the addresses rising. -/
def Memory.insert (a : Nat) (b : Byte) : Memory → Memory
  | [] => [(a, b)]
  | c :: m =>
    if a < c.1 then (a, b) :: c :: m
    else if a = c.1 then (a, b) :: m
    else c :: Memory.insert a b m

/-- Unlist an address. -/
def Memory.erase (a : Nat) (m : Memory) : Memory := m.filter fun c => c.1 != a

/-- Write one byte: a byte equal to the reset contents is unlisted, so that equal memories are equal lists. -/
def Memory.write (font : Vector Byte 80) (m : Memory) (a : Nat) (b : Byte) : Memory :=
  if b = Memory.unlisted font a then Memory.erase a m else Memory.insert a b m

/-- The memory that holds `f a` at every address a of the array. It is a list over all 4096 addresses, so it is kept from
being unfolded by accident. -/
@[irreducible] def Memory.ofBytes (font : Vector Byte 80) (f : Nat → Byte) : Memory :=
  (List.range Config.memSize).filterMap fun a => if f a = Memory.unlisted font a then none else some (a, f a)

/-- The canonical form: addresses strictly rising and inside the array, no cell equal to the reset contents. -/
abbrev Memory.wf (font : Vector Byte 80) (m : Memory) : Prop :=
  List.Pairwise (fun c d => c.1 < d.1) m ∧
    ∀ c ∈ m, c.1 < Config.memSize ∧ c.2 ≠ Memory.unlisted font c.1

end Sys2Proof.Machine
end

