-- ==== Sys2Proof/Machine/Ops.lean ====
section
/-! DEFINITION. The named operations the instructions share: registers, the memory unit, the call stack, PC updates, taking
a fault, the timer tick, the inputs of a step and the fetch. -/

namespace Sys2Proof.Machine

/-! ### Registers (spec/10_state.md R100, R101) -/

/-- Read `V[x]` (R16, R100). -/
def State.readV (s : State) (x : Reg) : Byte := s.v[x.toNat]

/-- `V[x] <- b` (R16, R100). -/
def State.writeV (s : State) (x : Reg) (b : Byte) : State := { s with v := s.v.set x.toNat b }

/-- VF, the flag register (`FLAG_REG`, R11, R101). -/
def regF : Reg := 0xF

/-- Write a flag into VF (R101). -/
def State.writeFlag (s : State) (f : Byte) : State := s.writeV regF f

/-- Write a result into Vx first and its flag into VF second (spec/30_encoding.md R321). -/
def State.writeResultFlag (s : State) (x : Reg) (b f : Byte) : State := (s.writeV x b).writeFlag f

/-- `I <- a` (R16, R113). -/
def State.writeI (s : State) (a : Word) : State := { s with i := a }

/-! ### The program counter (spec/30_encoding.md R331) -/

/-- The next PC is p + 2. -/
def State.advance (s : State) : State := { s with pc := s.pc + 2 }

/-- The next PC is `t`. -/
def State.jump (s : State) (t : Word) : State := { s with pc := t }

/-- The next PC of a skip: p + 4 when the condition holds, else p + 2 (R331, R456). -/
def State.skipIf (s : State) (c : Bool) : State := { s with pc := if c then s.pc + 4 else s.pc + 2 }

/-! ### The memory read/write unit (spec/20_memory.md R210-R212)

An error is the address, a natural number, of the first byte out of range. -/

/-- The byte at an address of the array (R220). -/
def State.readByte (s : State) (a : Nat) : Byte := Memory.read s.cfg.font s.mem a

/-- `MemRead(a, 1)` (R210). -/
def memRead (s : State) (a : Nat) : Except Nat Byte :=
  if a < Config.memSize then .ok (s.readByte a) else .error a

/-- The state with another memory. -/
def State.setMem (s : State) (m : Memory) : State := { s with mem := m }

/-- `MemWrite(a, 1, b)` (R211). -/
def memWrite (s : State) (a : Nat) (b : Byte) : Except Nat State :=
  if a < Config.memSize then .ok (s.setMem (Memory.write s.cfg.font s.mem a b)) else .error a

/-- MemRead of the bytes at a, a + 1, ..., in ascending order (R203, R212). -/
def memReads (s : State) (a : Nat) : Nat → Except Nat (List Byte)
  | 0 => .ok []
  | n + 1 =>
    match memRead s a with
    | .error e => .error e
    | .ok b =>
      match memReads s (a + 1) n with
      | .error e => .error e
      | .ok bs => .ok (b :: bs)

/-- MemWrite of bytes at a, a + 1, ..., in ascending order (R203, R212). -/
def memWrites (s : State) (a : Nat) : List Byte → Except Nat State
  | [] => .ok s
  | b :: bs =>
    match memWrite s a b with
    | .error e => .error e
    | .ok t => memWrites t (a + 1) bs

/-! ### The call stack (R120, R121) -/

/-- The slot at an index. An index beyond the 16 slots, which no run reaches, reads a free value (log 9). -/
def State.stackSlot (s : State) (j : Nat) : Word :=
  if h : j < 16 then s.stack[j] else Config.freeStackSlot j

/-- `STACK[SP] <- r; SP <- SP + 1`, for SP <= 15 (R120). -/
def State.push (s : State) (r : Word) : State :=
  { s with stack := s.stack.setIfInBounds s.sp.toNat r, sp := s.sp + 1 }

/-- `SP <- SP - 1`, for SP > 0 (R120). -/
def State.dropTop (s : State) : State := { s with sp := s.sp - 1 }

/-! ### Faults (spec/60_exceptions.md R800, R803) -/

/-- `raise Fault(cause)` in a step whose current instruction is at `s.pc` and has the word `w` (0 when the fetch faulted),
with the address `a` for MEM_RANGE (else 0): STATUS records it and the core is halted (R800). Every other piece of state
is unspecified from here on, a free value (R803; log 2); the parameters and the inputs lined up are no state of the core. -/
def raiseFault (c : Cause) (w : Word) (a : Nat) (s : State) : State where
  v := Config.unspecV s.drawn
  pc := Config.unspecPc s.drawn
  i := Config.unspecI s.drawn
  dt := Config.unspecDt s.drawn
  st := Config.unspecSt s.drawn
  sp := Config.unspecSp s.drawn
  stack := Config.unspecStack s.drawn
  fb := Config.unspecFb s.drawn
  mem := Memory.ofBytes s.cfg.font (Config.unspecMem s.drawn)
  status := { halted := true, cause := c, faultPc := s.pc, faultWord := w, faultAddr := BitVec.ofNat 16 a }
  cfg := s.cfg
  supplied := s.supplied
  drawn := s.drawn

/-- A fault raised by the executing instruction (`pc = p, word = w`): w is the word of the instruction (log 22). -/
def raiseIn (i : Instr) (c : Cause) (s : State) : State := raiseFault c (encode i) 0 s

/-- MEM_RANGE raised by a data access of the executing instruction, at the address `a` (R210, R211). -/
def raiseRange (i : Instr) (a : Nat) (s : State) : State := raiseFault .memRange (encode i) a s

/-! ### The timer tick (R820, R821) -/

/-- `TimerTick()`. -/
def timerTick (s : State) : State :=
  { s with
    dt := if s.dt = 0 then 0 else s.dt - 1
    st := if s.cfg.stCountsDown && s.st != 0 then s.st - 1 else s.st }

/-! ### The inputs of a step (R140-R142; log 3) -/

/-- The inputs of the coming step: what the host has lined up, else free values. -/
def State.input (s : State) : Inputs :=
  match s.supplied with
  | inp :: _ => inp
  | [] =>
    { rand8 := Config.freeRand8 s.drawn, keys := Config.freeKeys s.drawn, keyEvent := Config.freeKeyEvent s.drawn }

/-- `key_down(k)` (R141). -/
def State.keyDown (s : State) (k : Nat) : Bool := s.input.keys.getLsbD k

/-- The end of a step: the inputs it was given are gone, and the next one meets fresh ones. -/
def endStep (s : State) : State := { s with supplied := s.supplied.tail, drawn := s.drawn + 1 }

/-! ### Fetch (spec/30_encoding.md R330) -/

/-- The fetch phase: the word at PC, or the cause and address of the fault it raises, in the order of R804. -/
def fetch (s : State) : Except (Cause × Nat) Word :=
  if s.cfg.oddPcFaults && s.pc.toNat % 2 == 1 then .error (.misalignedFetch, 0)
  else
    match memRead s s.pc.toNat with
    | .error a => .error (.memRange, a)
    | .ok hi =>
      match memRead s (s.pc.toNat + 1) with
      | .error a => .error (.memRange, a)
      | .ok lo => .ok (wordOfBytes hi lo)

/-- The state with a word stored where the next fetch reads it, the byte at PC first (R213). Where the array does not hold
both bytes there is nothing to store. -/
def State.placeWord (s : State) (w : Word) : State :=
  match memWrites s s.pc.toNat [wordHi w, wordLo w] with
  | .ok t => t
  | .error _ => s

end Sys2Proof.Machine
end

