-- ==== Sys2Proof/Machine/Flags.lean ====
section
/-! DEFINITION. The flag computations (spec/42_alu.md R521; spec/45_display.md R701). Each answers the byte written to VF. -/

namespace Sys2Proof.Machine

/-- A flag is the byte 1 or 0. -/
def flagByte (c : Bool) : Byte := if c then 1 else 0

/-- Carry of an addition: 1 when the true sum exceeds 255 (R501, R506). -/
def carryFlag (a b : Byte) : Byte := flagByte (decide (255 < a.toNat + b.toNat))

/-- Not-borrow of a - b by strict comparison: 1 when a > b, SUB_EQ_FLAG when they are equal, 0 otherwise (R507, R509). -/
def notBorrowFlag (subEqFlag : Bool) (a b : Byte) : Byte :=
  flagByte (if b < a then true else if a = b then subEqFlag else false)

/-- The bit a right shift by one drops (R508). -/
def shrFlag (a : Byte) : Byte := flagByte (a.getLsbD 0)

/-- The bit a left shift by one drops (R510). -/
def shlFlag (a : Byte) : Byte := flagByte (a.getLsbD 7)

/-- Vx > Vy, unsigned (R511). -/
def gtFlag (a b : Byte) : Byte := flagByte (decide (b < a))

/-- Vx >= Vy, unsigned (R512). -/
def gteFlag (a b : Byte) : Byte := flagByte (decide (b ≤ a))

/-- Vx < Vy, unsigned (R513). -/
def ltFlag (a b : Byte) : Byte := flagByte (decide (a < b))

/-- Vx <= Vy, unsigned (R514). -/
def lteFlag (a b : Byte) : Byte := flagByte (decide (a ≤ b))

end Sys2Proof.Machine
end

