-- ==== Sys2Proof/Machine/Operands.lean ====
section
/-! DEFINITION. The operand forms: immediates, I-relative addresses, register ranges, decimal digits and sprite rows
(spec/30_encoding.md R302, R303; spec/43_index_memory.md R606). -/

namespace Sys2Proof.Machine

/-- `zext_16(nnn)` (R16, R302). -/
def zextAddr (nnn : Addr) : Word := nnn.setWidth 16

/-- A byte as a 16-bit value (R16). -/
def zextByte (b : Byte) : Word := b.setWidth 16

/-- The address I as a natural number, from which the k-th byte of an access is I + k, not wrapped (R212, R606). -/
def State.indexAddr (s : State) : Nat := s.i.toNat

/-- V0..Vx, inclusive: x + 1 bytes (R604). -/
def State.regsTo (s : State) (x : Reg) : List Byte := s.v.toList.take (x.toNat + 1)

/-- `V[k] <- bs[k]` for every k below the length of `bs` (R605); the other registers are not touched. -/
def State.writeRegs (s : State) (bs : List Byte) : State :=
  { s with v := Vector.ofFn fun k : Fin 16 => bs[k.val]?.getD s.v[k] }

/-- The decimal digits of a byte, hundreds first (R603). -/
def bcdDigits (b : Byte) : List Byte :=
  [BitVec.ofNat 8 (b.toNat / 100), BitVec.ofNat 8 (b.toNat / 10 % 10), BitVec.ofNat 8 (b.toNat % 10)]

/-- The address of the glyph of a digit, `FONT_BASE + 5 * digit` (R602). -/
def glyphAddr (digit : Byte) : Word := BitVec.ofNat 16 (Config.fontBase + Config.glyphBytes * digit.toNat)

/-- The bit of a sprite byte at column `col`, 0..7: bit 7 is column 0, the leftmost (spec/45_display.md R702). PRESUMED
(log 6): the spec marks the bit order as general knowledge. -/
def spriteBit (b : Byte) (col : Nat) : Bool := b.getLsbD (7 - col)

end Sys2Proof.Machine
end

