-- ==== Sys2Proof/Machine/Alu.lean ====
section
/-! DEFINITION. Register loads, arithmetic, logic, comparison and random (spec/42_alu.md). Every operand is read from the
state before the instruction (R320), every result wraps modulo 256 (R520), and nothing here faults. -/

namespace Sys2Proof.Machine

/-- 6xkk (R500). -/
def execLdVxKk (x : Reg) (kk : Byte) (s : State) : Host.Outcome State Fault Refusal :=
  .next (s.writeV x kk).advance

/-- 7xkk (R501): the carry goes to VF only when ADD_IMM_SETS_VF. -/
def execAddVxKk (x : Reg) (kk : Byte) (s : State) : Host.Outcome State Fault Refusal :=
  .next <|
    if s.cfg.addImmSetsVf then
      (s.writeResultFlag x (s.readV x + kk) (carryFlag (s.readV x) kk)).advance
    else (s.writeV x (s.readV x + kk)).advance

/-- 8xy0 (R502). -/
def execLdVxVy (x y : Reg) (s : State) : Host.Outcome State Fault Refusal :=
  .next (s.writeV x (s.readV y)).advance

/-- 8xy1 (R503). -/
def execOrVxVy (x y : Reg) (s : State) : Host.Outcome State Fault Refusal :=
  .next (s.writeV x (s.readV x ||| s.readV y)).advance

/-- 8xy2 (R504). -/
def execAndVxVy (x y : Reg) (s : State) : Host.Outcome State Fault Refusal :=
  .next (s.writeV x (s.readV x &&& s.readV y)).advance

/-- 8xy3 (R505). -/
def execXorVxVy (x y : Reg) (s : State) : Host.Outcome State Fault Refusal :=
  .next (s.writeV x (s.readV x ^^^ s.readV y)).advance

/-- 8xy4 (R506). -/
def execAddVxVy (x y : Reg) (s : State) : Host.Outcome State Fault Refusal :=
  .next (s.writeResultFlag x (s.readV x + s.readV y) (carryFlag (s.readV x) (s.readV y))).advance

/-- 8xy5 (R507). -/
def execSubVxVy (x y : Reg) (s : State) : Host.Outcome State Fault Refusal :=
  .next (s.writeResultFlag x (s.readV x - s.readV y)
    (notBorrowFlag s.cfg.subEqFlag (s.readV x) (s.readV y))).advance

/-- 8xy6 (R508). The y field is ignored. -/
def execShrVx (x _y : Reg) (s : State) : Host.Outcome State Fault Refusal :=
  .next (s.writeResultFlag x (s.readV x >>> 1) (shrFlag (s.readV x))).advance

/-- 8xy7 (R509). -/
def execSubnVxVy (x y : Reg) (s : State) : Host.Outcome State Fault Refusal :=
  .next (s.writeResultFlag x (s.readV y - s.readV x)
    (notBorrowFlag s.cfg.subEqFlag (s.readV y) (s.readV x))).advance

/-- 8xyE (R510). The y field is ignored. -/
def execShlVx (x _y : Reg) (s : State) : Host.Outcome State Fault Refusal :=
  .next (s.writeResultFlag x (s.readV x <<< 1) (shlFlag (s.readV x))).advance

/-- 9xy1 (R511). -/
def execGtVxVy (x y : Reg) (s : State) : Host.Outcome State Fault Refusal :=
  .next (s.writeFlag (gtFlag (s.readV x) (s.readV y))).advance

/-- 9xy2 (R512). -/
def execGteVxVy (x y : Reg) (s : State) : Host.Outcome State Fault Refusal :=
  .next (s.writeFlag (gteFlag (s.readV x) (s.readV y))).advance

/-- 9xy3 (R513). -/
def execLtVxVy (x y : Reg) (s : State) : Host.Outcome State Fault Refusal :=
  .next (s.writeFlag (ltFlag (s.readV x) (s.readV y))).advance

/-- 9xy4 (R514). -/
def execLteVxVy (x y : Reg) (s : State) : Host.Outcome State Fault Refusal :=
  .next (s.writeFlag (lteFlag (s.readV x) (s.readV y))).advance

/-- Cxkk (R515): the step's random byte under the mask. -/
def execRnd (x : Reg) (kk : Byte) (s : State) : Host.Outcome State Fault Refusal :=
  .next (s.writeV x (s.input.rand8 &&& kk)).advance

end Sys2Proof.Machine
end

