-- ==== Sys2Proof/Machine/Control.lean ====
section
/-! DEFINITION. Control transfer: 00EE, 1nnn, 2nnn, Bnnn (spec/40_control.md). `s.pc` is the address p of the current
instruction, and the timer tick of the step has already happened. -/

namespace Sys2Proof.Machine

/-- 00EE (R401): STACK_UNDERFLOW when SP = 0; else SP is decremented and PC becomes the slot it then names. -/
def execRet (s : State) : Host.Outcome State Fault Refusal :=
  .next <|
    if s.sp = 0 then raiseIn .ret .stackUnderflow s
    else s.dropTop.jump (s.dropTop.stackSlot s.dropTop.sp.toNat)

/-- 1nnn (R402). The target is not checked (R400). -/
def execJp (nnn : Addr) (s : State) : Host.Outcome State Fault Refusal :=
  .next (s.jump (zextAddr nnn))

/-- 2nnn (R403): STACK_OVERFLOW when SP > 15; else p + 2 is pushed. -/
def execCall (nnn : Addr) (s : State) : Host.Outcome State Fault Refusal :=
  .next <|
    if 15 < s.sp.toNat then raiseIn (.call nnn) .stackOverflow s
    else (s.push (s.pc + 2)).jump (zextAddr nnn)

/-- Bnnn (R404): V0 + nnn, not reduced modulo 4096. -/
def execJpV0 (nnn : Addr) (s : State) : Host.Outcome State Fault Refusal :=
  .next (s.jump (zextByte (s.readV 0) + zextAddr nnn))

end Sys2Proof.Machine
end

