-- ==== Sys2Proof/Machine/Display.lean ====
section
/-! DEFINITION. Display: clear and sprite draw (spec/45_display.md). -/

namespace Sys2Proof.Machine

/-- `FB[px][py]` (R130). -/
def pixel (fb : Framebuffer) (px : Fin 64) (py : Fin 32) : Bool := fb[px][py]

/-- `FB[px][py] <- FB[px][py] XOR 1` (R701). -/
def togglePixel (fb : Framebuffer) (px : Fin 64) (py : Fin 32) : Framebuffer :=
  fb.set px (fb[px].set py (!fb[px][py]))

/-- FB with every pixel off (R700). -/
def clearFb : Framebuffer := Vector.replicate 64 (Vector.replicate 32 false)

/-- What the compositor carries: FB so far, and whether a pixel has gone from on to off. -/
abbrev Canvas := Framebuffer × Bool

/-- Toggle one pixel and note a collision (R701). -/
def drawPixel (c : Canvas) (px : Fin 64) (py : Fin 32) : Canvas :=
  (togglePixel c.1 px py, c.2 || pixel c.1 px py)

/-- The pixel of column `col` and row `row` of a sprite drawn at (vx, vy): coordinates wrap (R701). -/
def spriteX (vx : Byte) (col : Nat) : Fin 64 := Fin.ofNat 64 (vx.toNat + col)
def spriteY (vy : Byte) (row : Nat) : Fin 32 := Fin.ofNat 32 (vy.toNat + row)

/-- The columns `col`, `col + 1`, ... of a sprite row, `k` of them: a set bit toggles its pixel, a clear bit leaves it. -/
def drawCols (vx vy b : Byte) (row col : Nat) : Nat → Canvas → Canvas
  | 0, c => c
  | k + 1, c =>
    drawCols vx vy b row (col + 1) k
      (if spriteBit b col then drawPixel c (spriteX vx col) (spriteY vy row) else c)

/-- The rows of a sprite from `row` on, one byte each, 8 columns wide. -/
def drawRows (vx vy : Byte) (row : Nat) : List Byte → Canvas → Canvas
  | [], c => c
  | b :: bs, c => drawRows vx vy (row + 1) bs (drawCols vx vy b row 0 8 c)

/-- 00E0 (R700): VF unchanged. -/
def execCls (s : State) : Host.Outcome State Fault Refusal :=
  .next { s with fb := clearFb }.advance

/-- Write the compositor's outputs: FB and, last, VF (R705). -/
def State.writeCanvas (s : State) (c : Canvas) : State := { s with fb := c.1 }.writeFlag (flagByte c.2)

/-- Dxyn (R701-R704): the n bytes at I, one per row; VF is the collision flag. The bytes are read before any pixel is
toggled, which no step can tell from reading them row by row: no access writes memory (R223), and a fault leaves FB
unspecified (R803; log 20). -/
def execDrw (x y : Reg) (n : Nibble) (s : State) : Host.Outcome State Fault Refusal :=
  .next <|
    match memReads s s.indexAddr n.toNat with
    | .error a => raiseRange (.drw x y n) a s
    | .ok bs => (s.writeCanvas (drawRows (s.readV x) (s.readV y) 0 bs (s.fb, false))).advance

end Sys2Proof.Machine
end

