-- ==== Sys2Proof/Machine/Index.lean ====
section
/-! DEFINITION. Index register, font lookup, BCD, register dump and load (spec/43_index_memory.md). Only Annn, Fx1E and Fx29
write I (R606). -/

namespace Sys2Proof.Machine

/-- Annn (R600). -/
def execLdi (nnn : Addr) (s : State) : Host.Outcome State Fault Refusal :=
  .next (s.writeI (zextAddr nnn)).advance

/-- Fx1E (R601): modulo 2^16, VF not written. -/
def execAddi (x : Reg) (s : State) : Host.Outcome State Fault Refusal :=
  .next (s.writeI (s.i + zextByte (s.readV x))).advance

/-- Fx29 (R602): FONT_RANGE when Vx > 15. -/
def execLdsprt (x : Reg) (s : State) : Host.Outcome State Fault Refusal :=
  .next <|
    if 15 < (s.readV x).toNat then raiseIn (.ldsprt x) .fontRange s
    else (s.writeI (glyphAddr (s.readV x))).advance

/-- The shared store: bytes to I, I + 1, ...; MEM_RANGE at the first address out of range (R603, R604). -/
def storeAtI (i : Instr) (bs : List Byte) (s : State) : State :=
  match memWrites s s.indexAddr bs with
  | .error a => raiseRange i a s
  | .ok t => t.advance

/-- Fx33 (R603). -/
def execLdbcd (x : Reg) (s : State) : Host.Outcome State Fault Refusal :=
  .next (storeAtI (.ldbcd x) (bcdDigits (s.readV x)) s)

/-- Fx55 (R604): I is unchanged. -/
def execDumpreg (x : Reg) (s : State) : Host.Outcome State Fault Refusal :=
  .next (storeAtI (.dumpreg x) (s.regsTo x) s)

/-- Fx65 (R605): I is unchanged, and so are V(x+1)..VF. -/
def execLdreg (x : Reg) (s : State) : Host.Outcome State Fault Refusal :=
  .next <|
    match memReads s s.indexAddr (x.toNat + 1) with
    | .error a => raiseRange (.ldreg x) a s
    | .ok bs => (s.writeRegs bs).advance

end Sys2Proof.Machine
end

