-- ==== Sys2Proof/Machine/Skip.lean ====
section
/-! DEFINITION. The conditional skips: 3xkk, 4xkk, 5xy0, 9xy0, Ex9E, ExA1 (spec/41_skip.md). A skip writes nothing but PC
(R456). -/

namespace Sys2Proof.Machine

/-- 3xkk (R450). -/
def execSeVxKk (x : Reg) (kk : Byte) (s : State) : Host.Outcome State Fault Refusal :=
  .next (s.skipIf (s.readV x == kk))

/-- 4xkk (R451). -/
def execSneVxKk (x : Reg) (kk : Byte) (s : State) : Host.Outcome State Fault Refusal :=
  .next (s.skipIf (s.readV x != kk))

/-- 5xy0 (R452). -/
def execSeVxVy (x y : Reg) (s : State) : Host.Outcome State Fault Refusal :=
  .next (s.skipIf (s.readV x == s.readV y))

/-- 9xy0 (R453). -/
def execSneVxVy (x y : Reg) (s : State) : Host.Outcome State Fault Refusal :=
  .next (s.skipIf (s.readV x != s.readV y))

/-- Ex9E (R454): KEY_RANGE when Vx > 15. -/
def execSkp (x : Reg) (s : State) : Host.Outcome State Fault Refusal :=
  .next <|
    if 15 < (s.readV x).toNat then raiseIn (.skp x) .keyRange s
    else s.skipIf (s.keyDown (s.readV x).toNat)

/-- ExA1 (R455): KEY_RANGE when Vx > 15. -/
def execSknp (x : Reg) (s : State) : Host.Outcome State Fault Refusal :=
  .next <|
    if 15 < (s.readV x).toNat then raiseIn (.sknp x) .keyRange s
    else s.skipIf (!s.keyDown (s.readV x).toNat)

end Sys2Proof.Machine
end

