-- ==== Sys2Proof/Machine/Timer.lean ====
section
/-! DEFINITION. Timer access and the key wait (spec/44_timer_input.md). DT as read or written here is the value after the
step's tick. -/

namespace Sys2Proof.Machine

/-- Fx07 (R650). -/
def execLdVxDt (x : Reg) (s : State) : Host.Outcome State Fault Refusal :=
  .next (s.writeV x s.dt).advance

/-- Fx0A (R653): a non-advancing poll. With no event PC stays at p, so the next step executes it again. -/
def execGetkey (x : Reg) (s : State) : Host.Outcome State Fault Refusal :=
  .next <|
    match s.input.keyEvent with
    | none => s
    | some k => (s.writeV x (k.setWidth 8)).advance

/-- Fx15 (R651). -/
def execLdDtVx (x : Reg) (s : State) : Host.Outcome State Fault Refusal :=
  .next { s with dt := s.readV x }.advance

/-- Fx18 (R652). -/
def execLdStVx (x : Reg) (s : State) : Host.Outcome State Fault Refusal :=
  .next { s with st := s.readV x }.advance

end Sys2Proof.Machine
end

