-- ==== Sys2Proof/Machine/Cycle.lean ====
section
/-! DEFINITION. One step of the core: the interpreter state machine of spec/30_encoding.md R330. -/

namespace Sys2Proof.Machine

/-- Dispatch and execute a fetched word (R330, after the tick): a word that matches no row raises ILLEGAL_OPCODE (R306). -/
def dispatchWord (w : Word) (s : State) : Host.Outcome State Fault Refusal :=
  match decodeWord w with
  | .error _ => .next (raiseFault .illegalOpcode w 0 s)
  | .ok i => exec i s

/-- The step's end, around a dispatch that answers a next state. -/
def thenEndStep : Host.Outcome State Fault Refusal → Host.Outcome State Fault Refusal
  | .next t => .next (endStep t)
  | .fault r => .fault r
  | .refused r => .refused r

/-- `step()` (R330): nothing in a halted core (R332); a fetch fault has word 0 and precedes the tick; else the tick (R820)
precedes the dispatch. -/
def runStep (s : State) : Host.Outcome State Fault Refusal :=
  if s.status.halted then .next s
  else
    match fetch s with
    | .error (c, a) => .next (endStep (raiseFault c 0 a s))
    | .ok w => thenEndStep (dispatchWord w (timerTick s))

end Sys2Proof.Machine
end

