-- ==== Sys2Proof/Machine/Step.lean ====
section
/-! DEFINITION. The machine's step, and a word placed where it fetches next. -/

namespace Sys2Proof.Machine

/-- One step of the core (spec/30_encoding.md R330; Machine/Cycle.lean). -/
def step (s : State) : Host.Outcome State Fault Refusal := runStep s

/-- The state with an opcode-table word stored at PC and PC + 1, big-endian (R213), so that the next step fetches it. It
stands for the host's load of a program (R910; log 18). -/
def State.withFetchWord (s : State) (nbits w : Nat) : State := s.placeWord (tableWord nbits w)

end Sys2Proof.Machine
end

