-- ==== Sys2Proof/Machine/Ports.lean ====
section
/-! DEFINITION. The core's ports (spec/10_state.md R150, R151) and what the host does through them between steps (spec/
70_reset_and_hazards.md R900, R904, R910). The ports `step`, `rand8`, `keys` and `key_event` are the step and its inputs. -/

namespace Sys2Proof.Machine

/-- The code of a cause on the 3-bit port `cause` (R801). -/
def causeCode : Cause → BitVec 3
  | .none => 0
  | .illegalOpcode => 1
  | .stackOverflow => 2
  | .stackUnderflow => 3
  | .memRange => 4
  | .misalignedFetch => 5
  | .keyRange => 6
  | .fontRange => 7

/-- The port `sound_on`: 1 exactly when ST is nonzero (R151). PRESUMED (log 8): the spec marks it as general knowledge. -/
def State.soundOn (s : State) : Bool := s.st != 0

/-- The ports `fb_pixel(px, py)` (R130, R150). -/
def State.fbPixel (s : State) (px : Fin 64) (py : Fin 32) : Bool := s.fb[px][py]

/-- The ports `halted`, `cause`, `fault_pc`, `fault_word`, `fault_addr` (R131, R150). -/
def State.statusPort (s : State) : Bool × BitVec 3 × Word × Word × Word :=
  (s.status.halted, causeCode s.status.cause, s.status.faultPc, s.status.faultWord, s.status.faultAddr)

/-- The port `reset`, taken between steps (R900, R904): every piece of state takes its reset value. The parameters and what
the host has lined up are no state of the core. -/
def State.resetPort (s : State) : State :=
  { State.resetWith s.cfg with supplied := s.supplied, drawn := s.drawn }

/-- The load port: one byte written at a 12-bit address, used before the first step (R150, R910). -/
def State.loadByte (s : State) (a : Addr) (b : Byte) : State :=
  s.setMem (Memory.write s.cfg.font s.mem a.toNat b)

/-- Copy the bytes of an image from an address on. -/
def loadFrom (s : State) (a : Nat) : List Byte → State
  | [] => s
  | b :: bs => loadFrom (s.loadByte (BitVec.ofNat 12 a) b) (a + 1) bs

/-- The host's load of a program image at 0x200 (R910). An image over 0xE00 bytes is one the host must not load (log 19). -/
def State.loadImage (s : State) (image : List Byte) : Option State :=
  if image.length ≤ Config.romMax then some (loadFrom s Config.loadBase image) else none

end Sys2Proof.Machine
end

