-- ==== Sys2Proof/Machine/RunEnd.lean ====
section
/-! DEFINITION. The end of a run (spec/70_reset_and_hazards.md R914): a run of steps ends at its first halted state, or at
its first state that is about to jump to itself, whichever comes first. The core itself never stops. -/

namespace Sys2Proof.Machine

/-- The word at PC, big-endian, whether or not a fetch there would fault. -/
def wordAt (s : State) : Word := wordOfBytes (s.readByte s.pc.toNat) (s.readByte (s.pc.toNat + 1))

/-- The word at PC is `1nnn` with nnn = PC. Both of its bytes are in the array (log 27); PC may be odd. -/
def State.atSelfJump (s : State) : Bool :=
  decide (s.pc.toNat + 1 < Config.memSize) && wordAt s == encode (.jp (s.pc.setWidth 12))

/-- The two ends of a run (R914). -/
inductive RunEnd where
  /-- (a) the core is halted by a fault -/
  | bad
  /-- (b) the core is about to jump to itself -/
  | idle
  deriving DecidableEq, Repr

/-- The end a run has in this state, if it has one here. -/
def State.endKind (s : State) : Option RunEnd :=
  if s.status.halted then some .bad
  else if s.atSelfJump then some .idle
  else none

/-- The end of the run from a state, with its end state, where it comes within `k` steps. The end state of an idle run is
the state before the self-jump executes, that of a bad run the state the faulting step leaves. A run for which this answers
none at every `k` has no end. -/
def endWithin : Nat → State → Option (RunEnd × State)
  | 0, s => s.endKind.map fun e => (e, s)
  | k + 1, s =>
    match s.endKind with
    | some e => some (e, s)
    | none =>
      match step s with
      | .next t => endWithin k t
      | .fault _ => none
      | .refused _ => none

end Sys2Proof.Machine
end

