-- ==== Sys2Proof/Safety.lean ====
section
/-! DEFINITION. The terms claims are stated in: what a step leaves unchanged, which fault an instruction raises and when,
the invariant of the machine, and how a run ends. None of it is used by the machine. -/

namespace Sys2Proof.Safety

open Sys2Proof.Machine

/-! ### Frames -/

/-- The pieces of the core's state, for saying which of them an instruction may change. -/
inductive Part where
  | v (r : Reg)
  | pc
  | i
  | dt
  | st
  | sp
  | stack
  | fb
  | mem
  deriving DecidableEq, Repr

/-- Every piece of the core's state that `changed` does not list is in `t` as it was in `s`: each V register (VF, the flag
register, is one of them), PC, I, the timers, SP, the stack, every pixel, and what every address of memory reads. STATUS, the
parameters and the inputs lined up are always as they were. -/
structure Frame (changed : List Part) (s t : State) : Prop where
  v : ∀ r, Part.v r ∉ changed → t.readV r = s.readV r
  pc : Part.pc ∉ changed → t.pc = s.pc
  i : Part.i ∉ changed → t.i = s.i
  dt : Part.dt ∉ changed → t.dt = s.dt
  st : Part.st ∉ changed → t.st = s.st
  sp : Part.sp ∉ changed → t.sp = s.sp
  stack : Part.stack ∉ changed → t.stack = s.stack
  fb : Part.fb ∉ changed → ∀ px py, pixel t.fb px py = pixel s.fb px py
  mem : Part.mem ∉ changed → ∀ a, t.readByte a = s.readByte a
  status : t.status = s.status
  cfg : t.cfg = s.cfg
  supplied : t.supplied = s.supplied
  drawn : t.drawn = s.drawn

/-- Every V register, for an instruction whose registers are said one by one beside the frame. -/
def everyV : List Part := (List.range 16).map fun k => Part.v (BitVec.ofNat 4 k)

/-! ### Faults (spec/60_exceptions.md R800, R801, R804) -/

/-- STATUS as a fault of the instruction with word `w` at `p` leaves it (R800). -/
def faulted (c : Cause) (p w : Word) (a : Nat) : Status :=
  { halted := true, cause := c, faultPc := p, faultWord := w, faultAddr := BitVec.ofNat 16 a }

/-- The fault a data access of `len` bytes from I raises: MEM_RANGE at the first address beyond the array (R804). -/
def rangeFault (s : State) (len : Nat) : Option (Cause × Nat) :=
  if len = 0 ∨ s.i.toNat + len ≤ 0x1000 then none else some (.memRange, max s.i.toNat 0x1000)

/-- The fault an instruction raises in its execute phase, with FAULT_ADDR: the table of R801, one line per raiser. -/
def faultOf (i : Instr) (s : State) : Option (Cause × Nat) :=
  match i with
  | .call _ => if 15 < s.sp.toNat then some (.stackOverflow, 0) else none
  | .ret => if s.sp.toNat = 0 then some (.stackUnderflow, 0) else none
  | .skp x | .sknp x => if 15 < (s.readV x).toNat then some (.keyRange, 0) else none
  | .ldsprt x => if 15 < (s.readV x).toNat then some (.fontRange, 0) else none
  | .ldbcd _ => rangeFault s 3
  | .dumpreg x | .ldreg x => rangeFault s (x.toNat + 1)
  | .drw _ _ n => rangeFault s n.toNat
  | _ => none

/-! ### Who writes what (spec/10_state.md R102) -/

/-- The V registers an instruction may write, VF among them where it writes a flag (the table of R102). -/
def writesV (i : Instr) (cfg : Config.Params) : List Reg :=
  match i with
  | .ldVxKk x _ | .ldVxVy x _ | .orVxVy x _ | .andVxVy x _ | .xorVxVy x _ | .rnd x _ | .ldVxDt x | .getkey x => [x]
  | .addVxKk x _ => if cfg.addImmSetsVf then [x, regF] else [x]
  | .addVxVy x _ | .subVxVy x _ | .subnVxVy x _ | .shrVx x _ | .shlVx x _ => [x, regF]
  | .gtVxVy _ _ | .gteVxVy _ _ | .ltVxVy _ _ | .lteVxVy _ _ | .drw _ _ _ => [regF]
  | .ldreg x => (List.range (x.toNat + 1)).map (BitVec.ofNat 4)
  | _ => []

/-- Fx33 and Fx55, the instructions that write memory (spec/20_memory.md R203). -/
def writesMem : Instr → Bool
  | .ldbcd _ | .dumpreg _ => true
  | _ => false

/-- Annn, Fx1E and Fx29, the instructions that write I (spec/43_index_memory.md R606). -/
def writesI : Instr → Bool
  | .ldi _ | .addi _ | .ldsprt _ => true
  | _ => false

/-- 2nnn and 00EE, the instructions that use the call stack (R122). -/
def usesStack : Instr → Bool
  | .call _ | .ret => true
  | _ => false

/-- 00E0 and Dxyn, the instructions that write FB (R130). -/
def writesFb : Instr → Bool
  | .cls | .drw _ _ _ => true
  | _ => false

/-! ### The invariant -/

/-- STATUS of a running core is as reset left it, and that of a halted one records a fault: FAULT_ADDR is an address beyond
memory for MEM_RANGE and 0 for every other cause (R131, R800). -/
def statusWf (st : Status) : Prop :=
  if st.halted then
    st.cause ≠ .none ∧ if st.cause = .memRange then 0x1000 ≤ st.faultAddr.toNat else st.faultAddr = 0
  else st = { halted := false, cause := .none, faultPc := 0, faultWord := 0, faultAddr := 0 }

/-- What holds of a running core: SP is 0..16 (R120), PC is at most 0x10FE (R111), and every occupied slot of the stack
holds the address after a 2nnn, at most 0x1000 (R111, R121). -/
def runningWf (s : State) : Prop :=
  s.sp.toNat ≤ 16 ∧ s.pc.toNat ≤ 0x10FE ∧ ∀ j, j < s.sp.toNat → (s.stackSlot j).toNat ≤ 0x1000

/-- The invariant: memory is in canonical form, STATUS is consistent, and a running core's SP, PC and stack are in range. Of
a halted core's registers nothing is said (R803). -/
def Inv (s : State) : Prop :=
  Memory.wf s.cfg.font s.mem ∧ statusWf s.status ∧ (s.status.halted = false → runningWf s)

/-! ### Reset (spec/10_state.md R160) -/

/-- Every piece of the core's state but memory has its reset value. -/
def atReset (s : State) : Prop :=
  (∀ r, s.readV r = 0) ∧ s.i = 0 ∧ s.pc = 0x200 ∧ s.sp = 0 ∧ (∀ j, j < 16 → s.stackSlot j = 0) ∧ s.dt = 0 ∧ s.st = 0 ∧
    (∀ px py, pixel s.fb px py = false) ∧
    s.status = { halted := false, cause := .none, faultPc := 0, faultWord := 0, faultAddr := 0 }

/-- Memory has its reset contents: the glyph of digit d at 5 * d, one byte a row, and 0 elsewhere (R901, R902). -/
def memAtReset (s : State) : Prop :=
  (∀ d k, (hd : d < 16) → (hk : k < 5) → s.readByte (5 * d + k) = s.cfg.font[5 * d + k]) ∧
    ∀ a, 0x50 ≤ a → a < 0x1000 → s.readByte a = 0

/-! ### Sprites (spec/45_display.md R701, R702) -/

/-- The n-row sprite at I, drawn at column vx and row vy, has a set bit for pixel (px, py): bit 7 of a row is its leftmost
column, and both coordinates wrap. -/
def spriteCovers (s : State) (vx vy : Byte) (n : Nat) (px : Fin 64) (py : Fin 32) : Prop :=
  ∃ row col, row < n ∧ col < 8 ∧ (s.readByte (s.i.toNat + row)).getLsbD (7 - col) = true ∧
    px.val = (vx.toNat + col) % 64 ∧ py.val = (vy.toNat + row) % 32

/-- The n bytes from I on are all in the array; a sprite of no rows reads none (R701, R704). -/
abbrev inRange (s : State) (n : Nat) : Prop := n = 0 ∨ s.i.toNat + n ≤ 0x1000

/-! ### The end of a run (spec/70_reset_and_hazards.md R914) -/

/-- A running core that can fetch at PC: PC and PC + 1 are in the array, and PC is even where ODD_PC_FAULTS. -/
abbrev canFetch (s : State) : Prop :=
  s.status.halted = false ∧ s.pc.toNat + 1 < 0x1000 ∧ (s.cfg.oddPcFaults = true → s.pc.toNat % 2 = 0)

/-- The idle end: the word at PC, both bytes of it in the array, is `1nnn` with nnn = PC, a jump to itself (R914). PC may be
odd, where ODD_PC_FAULTS too. The core is not halted: a run that reaches a halted state has ended bad. -/
def idle (s : State) : Prop :=
  s.status.halted = false ∧ s.pc.toNat + 1 < 0x1000 ∧ ∃ nnn : Addr, wordAt s = encode (.jp nnn) ∧ nnn.toNat = s.pc.toNat

/-- The bad end: the core is halted (R914). -/
abbrev bad (s : State) : Prop := s.status.halted = true

end Sys2Proof.Safety
end

