-- ==== Sys2Proof/Certificates/Slice0/Obligations.lean ====
section
/-! DEFINITION. The statements, from the numbered rules of spec/. Where a statement says 'derived' in OBLIGATIONS.json, its
docstring names the decision of the spec, or the log entry of the model, it rests on. -/

open Sys2Proof Sys2Proof.Machine Sys2Proof.Safety

/-! ### Encoding (spec/30_encoding.md) -/

/-- R304: one word of each family decodes to its instruction. The sub-opcode numbers rest on decisions D8, D9. -/
def Obligations.WordsOfEachFamilyDecode : Prop :=
  decodeTableWord 16 0x00E0 = some .cls ∧ decodeTableWord 16 0x2ABC = some (.call 0xABC) ∧
    decodeTableWord 16 0x5120 = some (.seVxVy 1 2) ∧ decodeTableWord 16 0x7A05 = some (.addVxKk 0xA 0x05) ∧
    decodeTableWord 16 0x8BC7 = some (.subnVxVy 0xB 0xC) ∧ decodeTableWord 16 0x9124 = some (.lteVxVy 1 2) ∧
    decodeTableWord 16 0xA30F = some (.ldi 0x30F) ∧ decodeTableWord 16 0xD125 = some (.drw 1 2 5) ∧
    decodeTableWord 16 0xE5A1 = some (.sknp 5) ∧ decodeTableWord 16 0xF30A = some (.getkey 3)

/-- R300, R301, R304: the bytes of every instruction decode to it, with every operand at every value, and leave the bytes
after it. -/
def Obligations.DecodeOfEncodeIsTheInstruction : Prop :=
  ∀ (i : Instr) (rest : List Byte), i.wellFormed = true → decode (encodeBytes i ++ rest) = .ok (i, rest)

/-- R301, R304: no bit of a legal word is lost: encoding what it decodes to gives the word back. -/
def Obligations.EncodeOfDecodeIsTheWord : Prop :=
  ∀ (w : Word) (i : Instr), decodeWord w = .ok i → encode i = w

/-- R304: no word matches two rows; a word that matches one row is that row's instruction; a word that matches none is
illegal. The sub-opcode numbers rest on decisions D8, D9. -/
def Obligations.DecoderFollowsTheOpcodeTable : Prop :=
  ∀ w : Word, (opcodeTable.filter fun r => r.matchesWord w).length ≤ 1 ∧
    (∀ r ∈ opcodeTable, r.matchesWord w = true → ∃ i, decodeWord w = .ok i ∧ i.row = r) ∧
    ((∀ r ∈ opcodeTable, r.matchesWord w = false) → decodeWord w = .error (.illegal w))

/-- R306: the illegal words are exactly the six sets listed (decision D24). -/
def Obligations.IllegalWordsAreTheSixSets : Prop :=
  ∀ w : Word, decodeWord w = .error (.illegal w) ↔
    (w.toNat / 0x1000 = 0 ∧ w ≠ 0x00E0 ∧ w ≠ 0x00EE) ∨
    (w.toNat / 0x1000 = 5 ∧ w.toNat % 16 ≠ 0) ∨
    (w.toNat / 0x1000 = 8 ∧ w.toNat % 16 ∈ [0x8, 0x9, 0xA, 0xB, 0xC, 0xD, 0xF]) ∨
    (w.toNat / 0x1000 = 9 ∧ 5 ≤ w.toNat % 16) ∨
    (w.toNat / 0x1000 = 0xE ∧ w.toNat % 256 ∉ [0x9E, 0xA1]) ∨
    (w.toNat / 0x1000 = 0xF ∧ w.toNat % 256 ∉ [0x07, 0x0A, 0x15, 0x18, 0x1E, 0x29, 0x33, 0x55, 0x65])

/-! ### Reset and load (spec/70_reset_and_hazards.md) -/

/-- R160: every piece of state but memory has its listed value after reset, under every configuration and after the reset
port from any state, a halted one too (R806); the machine's own reset has the default parameters of R12. The values of I,
STACK, FB and STATUS rest on decisions D2, D21, D22, D27. -/
def Obligations.ResetLeavesTheListedValues : Prop :=
  (∀ cfg, atReset (State.resetWith cfg)) ∧ (∀ s : State, atReset s.resetPort) ∧ atReset State.reset ∧
    State.reset.cfg = Config.defaults

/-- R901, R902: after reset FONT stands at 0x000-0x04F, five bytes a digit, and every other byte of memory is 0, whatever the
FONT. -/
def Obligations.ResetCopiesFontIntoZeroedMemory : Prop :=
  (∀ cfg, memAtReset (State.resetWith cfg)) ∧ ∀ s : State, memAtReset s.resetPort

/-- R910: an image of at most 0xE00 bytes is copied to 0x200 and nothing else changes; a longer one is not loaded (decision
D34, log 19). -/
def Obligations.LoadedImageStandsAtLoadBase : Prop :=
  ∀ (s : State) (image : List Byte),
    (image.length ≤ 0xE00 → ∃ t, s.loadImage image = some t ∧
      (∀ k, (h : k < image.length) → t.readByte (0x200 + k) = image[k]) ∧
      (∀ a, a < 0x200 ∨ 0x200 + image.length ≤ a → t.readByte a = s.readByte a) ∧ Frame [.mem] s t) ∧
    (0xE00 < image.length → s.loadImage image = none)

/-! ### The step (spec/30_encoding.md R330) -/

/-- R330, R213: where the two bytes at PC decode to an instruction, the step is its execution after the timer tick, and the
end of the step uses up the inputs it was given (the model's own fields, log 3). -/
def Obligations.StepRunsTheDecodedInstruction : Prop :=
  ∀ (s t : State) (i : Instr), canFetch s →
    decode [s.readByte s.pc.toNat, s.readByte (s.pc.toNat + 1)] = .ok (i, []) →
    exec i (timerTick s) = .next t →
    step s = .next (endStep t) ∧ endStep t = { t with supplied := t.supplied.tail, drawn := t.drawn + 1 }

/-- R820, R821, R822: the tick takes DT down by one and stops at 0, ST too where ST_COUNTS_DOWN, and changes nothing else
(decisions D19, D20). -/
def Obligations.TickCountsDownToZero : Prop :=
  ∀ s : State, (timerTick s).dt.toNat = s.dt.toNat - 1 ∧
    (timerTick s).st.toNat = (if s.cfg.stCountsDown then s.st.toNat - 1 else s.st.toNat) ∧ Frame [.dt, .st] s (timerTick s)

/-- R820, R822: a step that does not fault leaves in DT the value Fx15 wrote, or DT less one; in ST the value Fx18 wrote, or ST
less one where ST_COUNTS_DOWN, or ST (decisions D19, D20). -/
def Obligations.TimersChangeOnlyByTickAndTimerWrites : Prop :=
  ∀ (s : State) (i : Instr), canFetch s → decodeWord (wordAt s) = .ok i → faultOf i s = none →
    ∃ t, step s = .next t ∧
      t.dt.toNat = (match i with | .ldDtVx x => (s.readV x).toNat | _ => s.dt.toNat - 1) ∧
      t.st.toNat = (match i with
        | .ldStVx x => (s.readV x).toNat
        | _ => if s.cfg.stCountsDown then s.st.toNat - 1 else s.st.toNat)

/-- R332: a step of a halted core changes nothing (decision D21); so do any number of them, so that only reset leaves the
halted state (R806). -/
def Obligations.HaltedCoreStaysAsItIs : Prop :=
  ∀ (k : Nat) (s : State), bad s → Host.Core.run core k s = .next s

/-- R804 (1), (2), R214: a running core that cannot fetch at PC faults MISALIGNED_FETCH at an odd PC where ODD_PC_FAULTS, else
MEM_RANGE at the first byte beyond memory, with FAULT_WORD 0 (decisions D12, D13, D21 to D23). -/
def Obligations.FetchFaultsInPriorityOrder : Prop :=
  ∀ s : State, s.status.halted = false → ¬canFetch s →
    ∃ t, step s = .next t ∧ t.status =
      if s.cfg.oddPcFaults = true ∧ s.pc.toNat % 2 = 1 then faulted .misalignedFetch s.pc 0 0
      else faulted .memRange s.pc 0 (max s.pc.toNat 0x1000)

/-- R306, R800: executing an illegal word halts the core with ILLEGAL_OPCODE, its address and the word (decisions D21, D22,
D24). -/
def Obligations.IllegalWordHaltsTheCore : Prop :=
  ∀ s : State, canFetch s → Word.wellFormed (wordAt s) = false →
    ∃ t, step s = .next t ∧ t.status = faulted .illegalOpcode s.pc (wordAt s) 0

/-- R800, R801, R804: the execute phase of an instruction raises the fault the table of R801 lists for it, at the address
R804 gives, and no other; where it raises none, STATUS is unchanged (decisions D12, D15, D16, D21 to D23). -/
def Obligations.ExecuteFaultsAreTheListedOnes : Prop :=
  ∀ (i : Instr) (s : State), ∃ t, exec i s = .next t ∧
    t.status = (match faultOf i s with | some (c, a) => faulted c s.pc (encode i) a | none => s.status)

/-- R801: the cause codes on the status port, for one raiser of each execute-phase fault (decision D22). -/
def Obligations.StatusPortShowsTheCauseCode : Prop :=
  ∀ s : State,
    (∀ nnn, 15 < s.sp.toNat → ∃ t, exec (.call nnn) s = .next t ∧ t.statusPort = (true, 2, s.pc, encode (.call nnn), 0)) ∧
    (s.sp.toNat = 0 → ∃ t, exec .ret s = .next t ∧ t.statusPort = (true, 3, s.pc, 0x00EE, 0)) ∧
    (∀ x, s.i.toNat = 0xFFE → ∃ t, exec (.ldbcd x) s = .next t ∧ t.statusPort = (true, 4, s.pc, encode (.ldbcd x), 0x1000)) ∧
    (∀ x, 15 < (s.readV x).toNat → ∃ t, exec (.skp x) s = .next t ∧ t.statusPort = (true, 6, s.pc, encode (.skp x), 0)) ∧
    (∀ x, 15 < (s.readV x).toNat → ∃ t, exec (.ldsprt x) s = .next t ∧ t.statusPort = (true, 7, s.pc, encode (.ldsprt x), 0))

/-- R333: every step runs to completion: it always answers a next state. -/
def Obligations.EveryStepAnswersANextState : Prop := ∀ s : State, ∃ t, step s = .next t

/-- R222, R921: a word Fx55 stores over the next instruction is what the next step fetches. -/
def Obligations.StoredWordIsFetchedNext : Prop :=
  ∀ (s : State) (x : Reg), canFetch s → decodeWord (wordAt s) = .ok (.dumpreg x) → 1 ≤ x.toNat →
    s.i.toNat = s.pc.toNat + 2 → inRange s (x.toNat + 1) →
    ∃ t, step s = .next t ∧ t.pc.toNat = s.pc.toNat + 2 ∧ fetch t = .ok (wordOfBytes (s.readV 0) (s.readV 1))

/-- R914, R402: a run ends at its first state that is halted (bad) or about to jump to itself (idle), and has no end within
k steps where none of its first k + 1 states is either. Where an idle core can fetch, a step changes nothing but the timers
(and the model's own input fields), and the core is idle again (decision D32; the form of the run is the model's, log 27). -/
def Obligations.RunEndsAtFirstEndAndIdleChangesOnlyTimers : Prop :=
  (∀ (k : Nat) (s : State) (e : RunEnd) (t : State), endWithin k s = some (e, t) ↔
    ∃ j, j ≤ k ∧ Host.Core.run core j s = .next t ∧ (e = .bad ∧ bad t ∨ e = .idle ∧ idle t) ∧
      ∀ i, i < j → ∀ u, Host.Core.run core i s = .next u → ¬bad u ∧ ¬idle u) ∧
  ∀ s : State, idle s → canFetch s →
    ∃ u, step s = .next (endStep u) ∧ Frame [.dt, .st] s u ∧ idle (endStep u) ∧ canFetch (endStep u)

/-- R653: a key wait spins, one tick a step, for as long as there is no event, and with the first event stores its code and
goes on (decisions D20, D29). -/
def Obligations.KeyWaitSpinsUntilTheEvent : Prop :=
  ∀ (s : State) (x : Reg) (waits rest : List Inputs) (last : Inputs) (code : BitVec 4), canFetch s →
    decodeWord (wordAt s) = .ok (.getkey x) → s.supplied = waits ++ last :: rest → (∀ e ∈ waits, e.keyEvent = none) →
    last.keyEvent = some code →
    ∃ t, Host.Core.run core (waits.length + 1) s = .next t ∧ (t.readV x).toNat = code.toNat ∧
      (∀ r, r ≠ x → t.readV r = s.readV r) ∧ t.pc = s.pc + 2 ∧ t.dt.toNat = s.dt.toNat - (waits.length + 1) ∧
      t.i = s.i ∧ t.sp = s.sp ∧ t.stack = s.stack ∧ t.status = s.status ∧ ∀ a, t.readByte a = s.readByte a

/-! ### Control transfer (spec/40_control.md) -/

/-- R402: PC becomes nnn and nothing else changes; in this step nothing faults, and of a running core an odd nnn faults
MISALIGNED_FETCH at the next step, nnn = 0xFFF there either so or, with ODD_PC_FAULTS false, MEM_RANGE on the byte at 0x1000. -/
def Obligations.JumpWritesPcAndFaultsOnlyAtTheNextFetch : Prop :=
  ∀ (nnn : Addr) (s : State), ∃ t, exec (.jp nnn) s = .next t ∧ t.pc.toNat = nnn.toNat ∧ Frame [.pc] s t ∧
    (s.status.halted = false → s.cfg.oddPcFaults = true → nnn.toNat % 2 = 1 →
      ∃ u, step t = .next u ∧ u.status = faulted .misalignedFetch t.pc 0 0) ∧
    (s.status.halted = false → s.cfg.oddPcFaults = false → nnn.toNat = 0xFFF →
      ∃ u, step t = .next u ∧ u.status = faulted .memRange t.pc 0 0x1000)

/-- R404: PC becomes V0 + nnn, not reduced modulo 4096 (decision D12). -/
def Obligations.JumpV0AddsWithoutWrap : Prop :=
  ∀ (nnn : Addr) (s : State), ∃ t, exec (.jpV0 nnn) s = .next t ∧ t.pc.toNat = (s.readV 0).toNat + nnn.toNat ∧
    Frame [.pc] s t

/-- R403, R120: with SP at most 15 a call pushes p + 2 into STACK[SP], leaves the other slots, increments SP and jumps
(decisions D10, D11). -/
def Obligations.CallPushesTheReturnAddress : Prop :=
  ∀ (nnn : Addr) (s : State), s.sp.toNat ≤ 15 → ∃ t, exec (.call nnn) s = .next t ∧ t.pc.toNat = nnn.toNat ∧
    t.sp.toNat = s.sp.toNat + 1 ∧ t.stackSlot s.sp.toNat = s.pc + 2 ∧
    (∀ j, j ≠ s.sp.toNat → t.stackSlot j = s.stackSlot j) ∧ Frame [.pc, .sp, .stack] s t

/-- R401, R120: with SP in 1..16 a return decrements SP and jumps to STACK[SP], which keeps its value (decisions D10, D11). -/
def Obligations.ReturnPopsTheReturnAddress : Prop :=
  ∀ s : State, 1 ≤ s.sp.toNat → s.sp.toNat ≤ 16 → ∃ t, exec .ret s = .next t ∧ t.sp.toNat = s.sp.toNat - 1 ∧
    t.pc = s.stackSlot (s.sp.toNat - 1) ∧ Frame [.pc, .sp] s t

/-- R401: a return after a call resumes after the call, with SP and every slot but the one pushed as before (decision D10). -/
def Obligations.ReturnAfterCallResumesAfterIt : Prop :=
  ∀ (nnn : Addr) (s : State), s.sp.toNat ≤ 15 → ∃ t u, exec (.call nnn) s = .next t ∧ exec .ret t = .next u ∧
    u.pc = s.pc + 2 ∧ (∀ j, j ≠ s.sp.toNat → u.stackSlot j = s.stackSlot j) ∧ Frame [.pc, .stack] s u

/-! ### Skips (spec/41_skip.md) -/

/-- R450, R451, R453: the skips on equality with an immediate and on inequality, and their encodings. -/
def Obligations.SkipsOnImmediateAndInequality : Prop :=
  ∀ (x y : Reg) (kk : Byte) (s : State),
    (∃ t, exec (.seVxKk x kk) s = .next t ∧ t.pc = (if s.readV x = kk then s.pc + 4 else s.pc + 2) ∧ Frame [.pc] s t) ∧
    (∃ t, exec (.sneVxKk x kk) s = .next t ∧ t.pc = (if s.readV x ≠ kk then s.pc + 4 else s.pc + 2) ∧ Frame [.pc] s t) ∧
    (∃ t, exec (.sneVxVy x y) s = .next t ∧ t.pc = (if s.readV x ≠ s.readV y then s.pc + 4 else s.pc + 2) ∧
      Frame [.pc] s t) ∧
    decodeWord (encodeXkk 0x3 x kk) = .ok (.seVxKk x kk) ∧ decodeWord (encodeXkk 0x4 x kk) = .ok (.sneVxKk x kk) ∧
    decodeWord (encodeXyn 0x9 x y 0x0) = .ok (.sneVxVy x y)

/-- R452: the skip on equal registers, which always skips when x = y (decision D24 for the legal n). -/
def Obligations.SkipOnEqualRegisters : Prop :=
  ∀ (x y : Reg) (s : State), ∃ t, exec (.seVxVy x y) s = .next t ∧ Frame [.pc] s t ∧
    t.pc = (if s.readV x = s.readV y then s.pc + 4 else s.pc + 2) ∧ (x = y → t.pc = s.pc + 4)

/-- R454, R455: with a key code 0..15 in Vx the skips test that key of the step's key vector (decisions D16, D29). -/
def Obligations.KeySkipsTestTheKeyOfVx : Prop :=
  ∀ (x : Reg) (s : State), (s.readV x).toNat ≤ 15 →
    (∃ t, exec (.skp x) s = .next t ∧ Frame [.pc] s t ∧
      t.pc = if s.input.keys.getLsbD (s.readV x).toNat = true then s.pc + 4 else s.pc + 2) ∧
    (∃ t, exec (.sknp x) s = .next t ∧ Frame [.pc] s t ∧
      t.pc = if s.input.keys.getLsbD (s.readV x).toNat = false then s.pc + 4 else s.pc + 2)

/-! ### Loads, arithmetic, logic, comparison, random (spec/42_alu.md) -/

/-- R500: Vx <- kk, encoded as 6xkk. -/
def Obligations.LoadImmediateWritesVx : Prop :=
  ∀ (x : Reg) (kk : Byte) (s : State), decodeWord (encodeXkk 0x6 x kk) = .ok (.ldVxKk x kk) ∧
    ∃ t, exec (.ldVxKk x kk) s = .next t ∧ t.readV x = kk ∧ t.pc = s.pc + 2 ∧ Frame [.v x, .pc] s t

/-- R502: Vx <- Vy (decision D9 for its sub-opcode). -/
def Obligations.LoadRegisterCopiesVy : Prop :=
  ∀ (x y : Reg) (s : State), ∃ t, exec (.ldVxVy x y) s = .next t ∧ t.readV x = s.readV y ∧ t.pc = s.pc + 2 ∧
    Frame [.v x, .pc] s t

/-- R501: Vx <- (Vx + kk) mod 256; VF takes the carry, last, exactly when ADD_IMM_SETS_VF (decision D5, R321). -/
def Obligations.AddImmediateWraps : Prop :=
  ∀ (x : Reg) (kk : Byte) (s : State), ∃ t, exec (.addVxKk x kk) s = .next t ∧ t.pc = s.pc + 2 ∧
    (s.cfg.addImmSetsVf = false ∨ x ≠ regF → (t.readV x).toNat = ((s.readV x).toNat + kk.toNat) % 256) ∧
    (s.cfg.addImmSetsVf = true → (t.readV regF).toNat = if 255 < (s.readV x).toNat + kk.toNat then 1 else 0) ∧
    Frame (if s.cfg.addImmSetsVf then [.v x, .v regF, .pc] else [.v x, .pc]) s t

/-- R503, R504, R505: bit by bit, with VF written only as the destination (decisions D6, D9). -/
def Obligations.LogicWorksBitByBit : Prop :=
  ∀ (x y : Reg) (s : State),
    (∃ t, exec (.orVxVy x y) s = .next t ∧ t.pc = s.pc + 2 ∧ Frame [.v x, .pc] s t ∧
      ∀ b, (t.readV x).getLsbD b = ((s.readV x).getLsbD b || (s.readV y).getLsbD b)) ∧
    (∃ t, exec (.andVxVy x y) s = .next t ∧ t.pc = s.pc + 2 ∧ Frame [.v x, .pc] s t ∧
      ∀ b, (t.readV x).getLsbD b = ((s.readV x).getLsbD b && (s.readV y).getLsbD b)) ∧
    (∃ t, exec (.xorVxVy x y) s = .next t ∧ t.pc = s.pc + 2 ∧ Frame [.v x, .pc] s t ∧
      ∀ b, (t.readV x).getLsbD b = ((s.readV x).getLsbD b != (s.readV y).getLsbD b))

/-- R506: the sum modulo 256, then VF <- carry, so that x = F keeps the carry (decisions D3, D4, D9). -/
def Obligations.AddSetsSumThenCarry : Prop :=
  ∀ (x y : Reg) (s : State), ∃ t, exec (.addVxVy x y) s = .next t ∧ t.pc = s.pc + 2 ∧
    (x ≠ regF → (t.readV x).toNat = ((s.readV x).toNat + (s.readV y).toNat) % 256) ∧
    (t.readV regF).toNat = (if 255 < (s.readV x).toNat + (s.readV y).toNat then 1 else 0) ∧ Frame [.v x, .v regF, .pc] s t

/-- R507: Vx - Vy modulo 256, then VF <- 1 when Vx > Vy, SUB_EQ_FLAG when equal, else 0 (decisions D3, D4, D9, D33). -/
def Obligations.SubtractSetsStrictNotBorrow : Prop :=
  ∀ (x y : Reg) (s : State), ∃ t, exec (.subVxVy x y) s = .next t ∧ t.pc = s.pc + 2 ∧
    (x ≠ regF → (t.readV x).toNat = ((s.readV x).toNat + 256 - (s.readV y).toNat) % 256) ∧
    (t.readV regF).toNat = (if (s.readV y).toNat < (s.readV x).toNat then 1
      else if (s.readV x).toNat = (s.readV y).toNat then (if s.cfg.subEqFlag then 1 else 0) else 0) ∧
    Frame [.v x, .v regF, .pc] s t

/-- R509: Vy - Vx modulo 256 into Vx, then VF <- 1 when Vy > Vx, SUB_EQ_FLAG when equal, else 0 (D3, D4, D9, D33). -/
def Obligations.ReverseSubtractSetsStrictNotBorrow : Prop :=
  ∀ (x y : Reg) (s : State), ∃ t, exec (.subnVxVy x y) s = .next t ∧ t.pc = s.pc + 2 ∧
    (x ≠ regF → (t.readV x).toNat = ((s.readV y).toNat + 256 - (s.readV x).toNat) % 256) ∧
    (t.readV regF).toNat = (if (s.readV x).toNat < (s.readV y).toNat then 1
      else if (s.readV y).toNat = (s.readV x).toNat then (if s.cfg.subEqFlag then 1 else 0) else 0) ∧
    Frame [.v x, .v regF, .pc] s t

/-- R508, R510: Vx shifts in place by one, whatever y, then VF <- the bit shifted out (decisions D4, D7, D9). -/
def Obligations.ShiftsMoveVxByOne : Prop :=
  ∀ (x y : Reg) (s : State),
    (∃ t, exec (.shrVx x y) s = .next t ∧ t.pc = s.pc + 2 ∧ (x ≠ regF → (t.readV x).toNat = (s.readV x).toNat / 2) ∧
      (t.readV regF).toNat = (s.readV x).toNat % 2 ∧ Frame [.v x, .v regF, .pc] s t) ∧
    (∃ t, exec (.shlVx x y) s = .next t ∧ t.pc = s.pc + 2 ∧
      (x ≠ regF → (t.readV x).toNat = (s.readV x).toNat * 2 % 256) ∧
      (t.readV regF).toNat = (s.readV x).toNat / 128 ∧ Frame [.v x, .v regF, .pc] s t)

/-- R511 to R514: VF <- the unsigned comparison of Vx (left) with Vy; nothing else is written (decision D8). -/
def Obligations.ComparisonsStoreIntoVf : Prop :=
  ∀ (x y : Reg) (s : State),
    (∃ t, exec (.gtVxVy x y) s = .next t ∧ t.pc = s.pc + 2 ∧ Frame [.v regF, .pc] s t ∧
      (t.readV regF).toNat = if (s.readV y).toNat < (s.readV x).toNat then 1 else 0) ∧
    (∃ t, exec (.gteVxVy x y) s = .next t ∧ t.pc = s.pc + 2 ∧ Frame [.v regF, .pc] s t ∧
      (t.readV regF).toNat = if (s.readV y).toNat ≤ (s.readV x).toNat then 1 else 0) ∧
    (∃ t, exec (.ltVxVy x y) s = .next t ∧ t.pc = s.pc + 2 ∧ Frame [.v regF, .pc] s t ∧
      (t.readV regF).toNat = if (s.readV x).toNat < (s.readV y).toNat then 1 else 0) ∧
    (∃ t, exec (.lteVxVy x y) s = .next t ∧ t.pc = s.pc + 2 ∧ Frame [.v regF, .pc] s t ∧
      (t.readV regF).toNat = if (s.readV x).toNat ≤ (s.readV y).toNat then 1 else 0)

/-- R515: Vx <- rand8 AND kk: no bit outside kk is set, and the bits inside are those of the step's random byte (D28). -/
def Obligations.RandomByteIsMasked : Prop :=
  ∀ (x : Reg) (kk : Byte) (s : State), ∃ t, exec (.rnd x kk) s = .next t ∧ t.pc = s.pc + 2 ∧ Frame [.v x, .pc] s t ∧
    ∀ b, (t.readV x).getLsbD b = (s.input.rand8.getLsbD b && kk.getLsbD b)

/-- R515: every value whose set bits all lie inside kk is a possible result, and no other value is (decision D28). -/
def Obligations.RandomResultsAreTheMaskedBytes : Prop :=
  ∀ (x : Reg) (kk b : Byte) (s : State),
    (∃ (inp : Inputs) (t : State), exec (.rnd x kk) { s with supplied := [inp] } = .next t ∧ t.readV x = b) ↔
      ∀ k, b.getLsbD k = true → kk.getLsbD k = true

/-! ### Index register and memory (spec/43_index_memory.md) -/

/-- R600: I <- nnn, encoded as Annn. -/
def Obligations.LoadIndexWritesI : Prop :=
  ∀ (nnn : Addr) (s : State), decodeWord (encodeNnn 0xA nnn) = .ok (.ldi nnn) ∧
    ∃ t, exec (.ldi nnn) s = .next t ∧ t.i.toNat = nnn.toNat ∧ t.pc = s.pc + 2 ∧ Frame [.i, .pc] s t

/-- R601: I <- (I + Vx) mod 2^16, with no flag and no fault (decision D14). -/
def Obligations.AddToIndexWrapsAtSixteenBits : Prop :=
  ∀ (x : Reg) (s : State), ∃ t, exec (.addi x) s = .next t ∧ t.i.toNat = (s.i.toNat + (s.readV x).toNat) % 65536 ∧
    t.pc = s.pc + 2 ∧ Frame [.i, .pc] s t

/-- R602: for a digit 0..15 I <- 5 * Vx (decision D15). -/
def Obligations.FontLookupPointsAtTheGlyph : Prop :=
  ∀ (x : Reg) (s : State), (s.readV x).toNat ≤ 15 → ∃ t, exec (.ldsprt x) s = .next t ∧
    t.i.toNat = 5 * (s.readV x).toNat ∧ t.pc = s.pc + 2 ∧ Frame [.i, .pc] s t

/-- R603: hundreds, tens and ones at I, I + 1, I + 2; every other byte as before (decision D12). -/
def Obligations.BcdStoresThreeDigits : Prop :=
  ∀ (x : Reg) (s : State), inRange s 3 → ∃ t, exec (.ldbcd x) s = .next t ∧ t.pc = s.pc + 2 ∧
    (t.readByte s.indexAddr).toNat = (s.readV x).toNat / 100 ∧
    (t.readByte (s.indexAddr + 1)).toNat = (s.readV x).toNat / 10 % 10 ∧
    (t.readByte (s.indexAddr + 2)).toNat = (s.readV x).toNat % 10 ∧
    (∀ a, a < s.indexAddr ∨ s.indexAddr + 3 ≤ a → t.readByte a = s.readByte a) ∧ Frame [.mem, .pc] s t

/-- R604: V0..Vx at I..I + x; every other byte as before, and I too (decisions D12, D17). -/
def Obligations.DumpStoresV0ToVx : Prop :=
  ∀ (x : Reg) (s : State), inRange s (x.toNat + 1) → ∃ t, exec (.dumpreg x) s = .next t ∧ t.pc = s.pc + 2 ∧
    (∀ k : Reg, k.toNat ≤ x.toNat → t.readByte (s.indexAddr + k.toNat) = s.readV k) ∧
    (∀ a, a < s.indexAddr ∨ s.indexAddr + x.toNat < a → t.readByte a = s.readByte a) ∧ Frame [.mem, .pc] s t

/-- R605: V0..Vx from I..I + x; V(x+1)..VF, I and memory as before (decisions D12, D17). -/
def Obligations.LoadReadsV0ToVx : Prop :=
  ∀ (x : Reg) (s : State), inRange s (x.toNat + 1) → ∃ t, exec (.ldreg x) s = .next t ∧ t.pc = s.pc + 2 ∧
    (∀ k : Reg, k.toNat ≤ x.toNat → t.readV k = s.readByte (s.indexAddr + k.toNat)) ∧
    (∀ k : Reg, x.toNat < k.toNat → t.readV k = s.readV k) ∧
    Frame (everyV ++ [.pc]) s t

/-- R605: a load with the same I and x, from any state whose I and memory a dump left, restores V0..Vx and touches no other
register (decision D17). -/
def Obligations.LoadAfterDumpRestoresRegisters : Prop :=
  ∀ (x : Reg) (s : State), inRange s (x.toNat + 1) → ∃ t, exec (.dumpreg x) s = .next t ∧
    ∀ u : State, u.i = t.i → (∀ a, u.readByte a = t.readByte a) → ∃ r, exec (.ldreg x) u = .next r ∧
      (∀ k : Reg, k.toNat ≤ x.toNat → r.readV k = s.readV k) ∧ ∀ k : Reg, x.toNat < k.toNat → r.readV k = u.readV k

/-- R804 (5), R212: a data access that leaves memory halts the core with MEM_RANGE at its first address beyond it
(decisions D12, D21 to D23). -/
def Obligations.DataAccessBeyondMemoryHalts : Prop :=
  ∀ (x y : Reg) (n : Nibble) (s : State),
    (¬inRange s 3 → ∃ t, exec (.ldbcd x) s = .next t ∧
      t.status = faulted .memRange s.pc (encode (.ldbcd x)) (max s.i.toNat 0x1000)) ∧
    (¬inRange s (x.toNat + 1) → ∃ t, exec (.dumpreg x) s = .next t ∧
      t.status = faulted .memRange s.pc (encode (.dumpreg x)) (max s.i.toNat 0x1000)) ∧
    (¬inRange s (x.toNat + 1) → ∃ t, exec (.ldreg x) s = .next t ∧
      t.status = faulted .memRange s.pc (encode (.ldreg x)) (max s.i.toNat 0x1000)) ∧
    (¬inRange s n.toNat → ∃ t, exec (.drw x y n) s = .next t ∧
      t.status = faulted .memRange s.pc (encode (.drw x y n)) (max s.i.toNat 0x1000))

/-! ### Timers and the key wait (spec/44_timer_input.md) -/

/-- R650, R651, R652, R151: Vx <- DT, DT <- Vx, ST <- Vx, and sound_on is then 1 exactly when Vx is nonzero (decisions D19,
D20; the rule of sound_on is general knowledge, log 8). -/
def Obligations.TimerInstructionsMoveDtAndSt : Prop :=
  ∀ (x : Reg) (s : State),
    (∃ t, exec (.ldVxDt x) s = .next t ∧ t.readV x = s.dt ∧ t.pc = s.pc + 2 ∧ Frame [.v x, .pc] s t) ∧
    (∃ t, exec (.ldDtVx x) s = .next t ∧ t.dt = s.readV x ∧ t.pc = s.pc + 2 ∧ Frame [.dt, .pc] s t) ∧
    (∃ t, exec (.ldStVx x) s = .next t ∧ t.st = s.readV x ∧ t.pc = s.pc + 2 ∧ Frame [.st, .pc] s t ∧
      (t.soundOn = true ↔ (s.readV x).toNat ≠ 0))

/-- R653: with an event Vx takes its code and PC advances; with none PC stays and nothing changes (decisions D20, D29). -/
def Obligations.KeyWaitStoresTheEventOrStays : Prop :=
  ∀ (x : Reg) (s : State), ∃ t, exec (.getkey x) s = .next t ∧
    match s.input.keyEvent with
    | none => t.pc = s.pc ∧ Frame [] s t
    | some code => (t.readV x).toNat = code.toNat ∧ t.pc = s.pc + 2 ∧ Frame [.v x, .pc] s t

/-! ### Display (spec/45_display.md) -/

/-- R700: exactly 00E0 is the clear; it turns every pixel off and leaves VF and everything else but PC. -/
def Obligations.ClearTurnsEveryPixelOff : Prop :=
  (∀ w, decodeWord w = .ok .cls ↔ w = 0x00E0) ∧
    ∀ s : State, ∃ t, exec .cls s = .next t ∧ (∀ px py, pixel t.fb px py = false) ∧ t.pc = s.pc + 2 ∧
      Frame [.fb, .pc] s t

/-- R701 to R704: the loop of the compositor toggles exactly the pixels the sprite covers, each once; VF is 1 when one of them
was on, else 0; x and y may be F (decisions D3, D18; the bit order is general knowledge, log 6). -/
def Obligations.DrawTogglesExactlyTheSprite : Prop :=
  ∀ (x y : Reg) (n : Nibble) (s : State), inRange s n.toNat → ∃ t, exec (.drw x y n) s = .next t ∧
    (∀ px py, spriteCovers s (s.readV x) (s.readV y) n.toNat px py → pixel t.fb px py = !pixel s.fb px py) ∧
    (∀ px py, ¬spriteCovers s (s.readV x) (s.readV y) n.toNat px py → pixel t.fb px py = pixel s.fb px py) ∧
    ((∃ px py, spriteCovers s (s.readV x) (s.readV y) n.toNat px py ∧ pixel s.fb px py = true) →
      (t.readV regF).toNat = 1) ∧
    ((∀ px py, spriteCovers s (s.readV x) (s.readV y) n.toNat px py → pixel s.fb px py = false) →
      (t.readV regF).toNat = 0) ∧
    t.pc = s.pc + 2 ∧ Frame [.fb, .v regF, .pc] s t

/-- R701: drawing the same sprite twice at coordinates that are not VF restores every pixel, and the second draw collides
exactly when the sprite covers a pixel that was off (decision D18). -/
def Obligations.DrawingTwiceRestoresThePixels : Prop :=
  ∀ (x y : Reg) (n : Nibble) (s : State), x ≠ regF → y ≠ regF → inRange s n.toNat →
    ∃ t u, exec (.drw x y n) s = .next t ∧ exec (.drw x y n) t = .next u ∧
      (∀ px py, pixel u.fb px py = pixel s.fb px py) ∧
      ((∃ px py, spriteCovers s (s.readV x) (s.readV y) n.toNat px py ∧ pixel s.fb px py = false) ↔
        (u.readV regF).toNat = 1)

/-! ### Rules of the whole machine -/

/-- R102: an instruction that does not fault writes no V register but those the table lists for it (derived there from the
instruction rules). -/
def Obligations.OnlyListedRegistersAreWritten : Prop :=
  ∀ (i : Instr) (s t : State), faultOf i s = none → exec i s = .next t →
    ∀ r, r ∉ writesV i s.cfg → t.readV r = s.readV r

/-- R203: an instruction that does not fault changes memory only if it is Fx33 or Fx55. -/
def Obligations.OnlyBcdAndDumpWriteMemory : Prop :=
  ∀ (i : Instr) (s t : State), faultOf i s = none → exec i s = .next t → writesMem i = false →
    ∀ a, t.readByte a = s.readByte a

/-- R606: only Annn, Fx1E and Fx29 write I: no access moves it (decision D17). -/
def Obligations.OnlyIndexInstructionsWriteI : Prop :=
  ∀ (i : Instr) (s t : State), faultOf i s = none → exec i s = .next t → writesI i = false → t.i = s.i

/-- R122: only 2nnn and 00EE touch SP and the stack. -/
def Obligations.OnlyCallAndReturnTouchTheStack : Prop :=
  ∀ (i : Instr) (s t : State), faultOf i s = none → exec i s = .next t → usesStack i = false →
    t.sp = s.sp ∧ ∀ j, t.stackSlot j = s.stackSlot j

/-- R130: only 00E0 and Dxyn write FB (decision D2). -/
def Obligations.OnlyClearAndDrawWritePixels : Prop :=
  ∀ (i : Instr) (s t : State), faultOf i s = none → exec i s = .next t → writesFb i = false →
    ∀ px py, pixel t.fb px py = pixel s.fb px py

/-- The model's own fields (log 3, log 4): no step changes the parameters of R12, and every step of a running core uses up
one set of inputs. -/
def Obligations.StepKeepsTheParameters : Prop :=
  ∀ s t : State, step s = .next t → t.cfg = s.cfg ∧
    (s.status.halted = false → t.supplied = s.supplied.tail ∧ t.drawn = s.drawn + 1)

/-- R160, R901, R902: the reset state meets the invariant, under every configuration. -/
def Obligations.ResetMeetsTheInvariant : Prop :=
  Inv State.reset ∧ ∀ cfg, Inv (State.resetWith cfg)

/-- R111, R120, R121, R131, R200: every step keeps the invariant: memory canonical, STATUS consistent, and of a running core SP
0..16, PC at most 0x10FE and every occupied stack slot at most 0x1000. The canonical form is the model's (log 17). -/
def Obligations.EveryStepKeepsTheInvariant : Prop :=
  ∀ s t : State, Inv s → step s = .next t → Inv t
end

