-- ==== Sys2Proof/Laws/Decode.lean ====
section
/-! SUPPORT. The fields of a word and the shapes of an encoded word as natural numbers (spec/30_encoding.md R301), from which
every fact about decoding an encoding, or encoding a decoding, is arithmetic. -/

namespace Sys2Proof

theorem toNat_wordOp (w : Word) : (wordOp w).toNat = w.toNat / 4096 := by
  simp [wordOp, Nat.shiftRight_eq_div_pow]
  omega

theorem toNat_wordX (w : Word) : (wordX w).toNat = w.toNat / 256 % 16 := by
  simp [wordX, Nat.shiftRight_eq_div_pow]

theorem toNat_wordY (w : Word) : (wordY w).toNat = w.toNat / 16 % 16 := by
  simp [wordY, Nat.shiftRight_eq_div_pow]

theorem toNat_wordN (w : Word) : (wordN w).toNat = w.toNat % 16 := by
  simp [wordN]

theorem toNat_wordKk (w : Word) : (wordKk w).toNat = w.toNat % 256 := by
  simp [wordKk]

theorem toNat_wordNnn (w : Word) : (wordNnn w).toNat = w.toNat % 4096 := by
  simp [wordNnn]

/-- Concatenation puts its left operand in the high bits (R14). -/
theorem toNat_append_eq {m n : Nat} (a : BitVec m) (b : BitVec n) : (a ++ b).toNat = a.toNat * 2 ^ n + b.toNat := by
  rw [BitVec.toNat_append, ← Nat.shiftLeft_add_eq_or_of_lt b.isLt, Nat.shiftLeft_eq]

theorem toNat_encodeXyn (op : Nibble) (x y : Reg) (n : Nibble) :
    (encodeXyn op x y n).toNat = op.toNat * 4096 + x.toNat * 256 + y.toNat * 16 + n.toNat := by
  refine (toNat_append_eq (op ++ x ++ y) n).trans ?_
  rw [toNat_append_eq, toNat_append_eq]
  omega

theorem toNat_encodeXkk (op : Nibble) (x : Reg) (kk : Byte) :
    (encodeXkk op x kk).toNat = op.toNat * 4096 + x.toNat * 256 + kk.toNat := by
  refine (toNat_append_eq (op ++ x) kk).trans ?_
  rw [toNat_append_eq]
  omega

theorem toNat_encodeNnn (op : Nibble) (nnn : Addr) : (encodeNnn op nnn).toNat = op.toNat * 4096 + nnn.toNat :=
  toNat_append_eq op nnn

/-- The two bytes of a word give the word back (R213). -/
theorem wordOfBytes_bytes (w : Word) : wordOfBytes (wordHi w) (wordLo w) = w := by
  refine BitVec.eq_of_toNat_eq ((toNat_append_eq _ _).trans ?_)
  simp [wordHi, wordLo, Nat.shiftRight_eq_div_pow]
  omega

end Sys2Proof
end

