-- ==== Sys2Proof/Laws/State.lean ====
section
/-! SUPPORT. What each update of State leaves in each field: one lemma per field per update, so that no proof unfolds a
record update. Of a fault's free values the lemmas say only which constant they are. -/

namespace Sys2Proof.Machine

/-! ### State.writeV -/

@[simp] theorem State.writeV_v (s : State) (x : Reg) (b : Byte) : (s.writeV x b).v = s.v.set x.toNat b := rfl
@[simp] theorem State.writeV_pc (s : State) (x : Reg) (b : Byte) : (s.writeV x b).pc = s.pc := rfl
@[simp] theorem State.writeV_i (s : State) (x : Reg) (b : Byte) : (s.writeV x b).i = s.i := rfl
@[simp] theorem State.writeV_dt (s : State) (x : Reg) (b : Byte) : (s.writeV x b).dt = s.dt := rfl
@[simp] theorem State.writeV_st (s : State) (x : Reg) (b : Byte) : (s.writeV x b).st = s.st := rfl
@[simp] theorem State.writeV_sp (s : State) (x : Reg) (b : Byte) : (s.writeV x b).sp = s.sp := rfl
@[simp] theorem State.writeV_stack (s : State) (x : Reg) (b : Byte) : (s.writeV x b).stack = s.stack := rfl
@[simp] theorem State.writeV_fb (s : State) (x : Reg) (b : Byte) : (s.writeV x b).fb = s.fb := rfl
@[simp] theorem State.writeV_mem (s : State) (x : Reg) (b : Byte) : (s.writeV x b).mem = s.mem := rfl
@[simp] theorem State.writeV_status (s : State) (x : Reg) (b : Byte) : (s.writeV x b).status = s.status := rfl
@[simp] theorem State.writeV_cfg (s : State) (x : Reg) (b : Byte) : (s.writeV x b).cfg = s.cfg := rfl
@[simp] theorem State.writeV_supplied (s : State) (x : Reg) (b : Byte) : (s.writeV x b).supplied = s.supplied := rfl
@[simp] theorem State.writeV_drawn (s : State) (x : Reg) (b : Byte) : (s.writeV x b).drawn = s.drawn := rfl

/-! ### State.writeFlag -/

@[simp] theorem State.writeFlag_v (s : State) (f : Byte) : (s.writeFlag f).v = s.v.set regF.toNat f := rfl
@[simp] theorem State.writeFlag_pc (s : State) (f : Byte) : (s.writeFlag f).pc = s.pc := rfl
@[simp] theorem State.writeFlag_i (s : State) (f : Byte) : (s.writeFlag f).i = s.i := rfl
@[simp] theorem State.writeFlag_dt (s : State) (f : Byte) : (s.writeFlag f).dt = s.dt := rfl
@[simp] theorem State.writeFlag_st (s : State) (f : Byte) : (s.writeFlag f).st = s.st := rfl
@[simp] theorem State.writeFlag_sp (s : State) (f : Byte) : (s.writeFlag f).sp = s.sp := rfl
@[simp] theorem State.writeFlag_stack (s : State) (f : Byte) : (s.writeFlag f).stack = s.stack := rfl
@[simp] theorem State.writeFlag_fb (s : State) (f : Byte) : (s.writeFlag f).fb = s.fb := rfl
@[simp] theorem State.writeFlag_mem (s : State) (f : Byte) : (s.writeFlag f).mem = s.mem := rfl
@[simp] theorem State.writeFlag_status (s : State) (f : Byte) : (s.writeFlag f).status = s.status := rfl
@[simp] theorem State.writeFlag_cfg (s : State) (f : Byte) : (s.writeFlag f).cfg = s.cfg := rfl
@[simp] theorem State.writeFlag_supplied (s : State) (f : Byte) : (s.writeFlag f).supplied = s.supplied := rfl
@[simp] theorem State.writeFlag_drawn (s : State) (f : Byte) : (s.writeFlag f).drawn = s.drawn := rfl

/-! ### State.writeResultFlag -/

@[simp] theorem State.writeResultFlag_v (s : State) (x : Reg) (b f : Byte) :
    (s.writeResultFlag x b f).v = (s.v.set x.toNat b).set regF.toNat f := rfl
@[simp] theorem State.writeResultFlag_pc (s : State) (x : Reg) (b f : Byte) : (s.writeResultFlag x b f).pc = s.pc := rfl
@[simp] theorem State.writeResultFlag_i (s : State) (x : Reg) (b f : Byte) : (s.writeResultFlag x b f).i = s.i := rfl
@[simp] theorem State.writeResultFlag_dt (s : State) (x : Reg) (b f : Byte) : (s.writeResultFlag x b f).dt = s.dt := rfl
@[simp] theorem State.writeResultFlag_st (s : State) (x : Reg) (b f : Byte) : (s.writeResultFlag x b f).st = s.st := rfl
@[simp] theorem State.writeResultFlag_sp (s : State) (x : Reg) (b f : Byte) : (s.writeResultFlag x b f).sp = s.sp := rfl
@[simp] theorem State.writeResultFlag_stack (s : State) (x : Reg) (b f : Byte) :
    (s.writeResultFlag x b f).stack = s.stack := rfl
@[simp] theorem State.writeResultFlag_fb (s : State) (x : Reg) (b f : Byte) : (s.writeResultFlag x b f).fb = s.fb := rfl
@[simp] theorem State.writeResultFlag_mem (s : State) (x : Reg) (b f : Byte) :
    (s.writeResultFlag x b f).mem = s.mem := rfl
@[simp] theorem State.writeResultFlag_status (s : State) (x : Reg) (b f : Byte) :
    (s.writeResultFlag x b f).status = s.status := rfl
@[simp] theorem State.writeResultFlag_cfg (s : State) (x : Reg) (b f : Byte) :
    (s.writeResultFlag x b f).cfg = s.cfg := rfl
@[simp] theorem State.writeResultFlag_supplied (s : State) (x : Reg) (b f : Byte) :
    (s.writeResultFlag x b f).supplied = s.supplied := rfl
@[simp] theorem State.writeResultFlag_drawn (s : State) (x : Reg) (b f : Byte) :
    (s.writeResultFlag x b f).drawn = s.drawn := rfl

/-! ### State.writeI -/

@[simp] theorem State.writeI_v (s : State) (a : Word) : (s.writeI a).v = s.v := rfl
@[simp] theorem State.writeI_pc (s : State) (a : Word) : (s.writeI a).pc = s.pc := rfl
@[simp] theorem State.writeI_i (s : State) (a : Word) : (s.writeI a).i = a := rfl
@[simp] theorem State.writeI_dt (s : State) (a : Word) : (s.writeI a).dt = s.dt := rfl
@[simp] theorem State.writeI_st (s : State) (a : Word) : (s.writeI a).st = s.st := rfl
@[simp] theorem State.writeI_sp (s : State) (a : Word) : (s.writeI a).sp = s.sp := rfl
@[simp] theorem State.writeI_stack (s : State) (a : Word) : (s.writeI a).stack = s.stack := rfl
@[simp] theorem State.writeI_fb (s : State) (a : Word) : (s.writeI a).fb = s.fb := rfl
@[simp] theorem State.writeI_mem (s : State) (a : Word) : (s.writeI a).mem = s.mem := rfl
@[simp] theorem State.writeI_status (s : State) (a : Word) : (s.writeI a).status = s.status := rfl
@[simp] theorem State.writeI_cfg (s : State) (a : Word) : (s.writeI a).cfg = s.cfg := rfl
@[simp] theorem State.writeI_supplied (s : State) (a : Word) : (s.writeI a).supplied = s.supplied := rfl
@[simp] theorem State.writeI_drawn (s : State) (a : Word) : (s.writeI a).drawn = s.drawn := rfl

/-! ### State.advance -/

@[simp] theorem State.advance_v (s : State) : (s.advance).v = s.v := rfl
@[simp] theorem State.advance_pc (s : State) : (s.advance).pc = s.pc + 2 := rfl
@[simp] theorem State.advance_i (s : State) : (s.advance).i = s.i := rfl
@[simp] theorem State.advance_dt (s : State) : (s.advance).dt = s.dt := rfl
@[simp] theorem State.advance_st (s : State) : (s.advance).st = s.st := rfl
@[simp] theorem State.advance_sp (s : State) : (s.advance).sp = s.sp := rfl
@[simp] theorem State.advance_stack (s : State) : (s.advance).stack = s.stack := rfl
@[simp] theorem State.advance_fb (s : State) : (s.advance).fb = s.fb := rfl
@[simp] theorem State.advance_mem (s : State) : (s.advance).mem = s.mem := rfl
@[simp] theorem State.advance_status (s : State) : (s.advance).status = s.status := rfl
@[simp] theorem State.advance_cfg (s : State) : (s.advance).cfg = s.cfg := rfl
@[simp] theorem State.advance_supplied (s : State) : (s.advance).supplied = s.supplied := rfl
@[simp] theorem State.advance_drawn (s : State) : (s.advance).drawn = s.drawn := rfl

/-! ### State.jump -/

@[simp] theorem State.jump_v (s : State) (t : Word) : (s.jump t).v = s.v := rfl
@[simp] theorem State.jump_pc (s : State) (t : Word) : (s.jump t).pc = t := rfl
@[simp] theorem State.jump_i (s : State) (t : Word) : (s.jump t).i = s.i := rfl
@[simp] theorem State.jump_dt (s : State) (t : Word) : (s.jump t).dt = s.dt := rfl
@[simp] theorem State.jump_st (s : State) (t : Word) : (s.jump t).st = s.st := rfl
@[simp] theorem State.jump_sp (s : State) (t : Word) : (s.jump t).sp = s.sp := rfl
@[simp] theorem State.jump_stack (s : State) (t : Word) : (s.jump t).stack = s.stack := rfl
@[simp] theorem State.jump_fb (s : State) (t : Word) : (s.jump t).fb = s.fb := rfl
@[simp] theorem State.jump_mem (s : State) (t : Word) : (s.jump t).mem = s.mem := rfl
@[simp] theorem State.jump_status (s : State) (t : Word) : (s.jump t).status = s.status := rfl
@[simp] theorem State.jump_cfg (s : State) (t : Word) : (s.jump t).cfg = s.cfg := rfl
@[simp] theorem State.jump_supplied (s : State) (t : Word) : (s.jump t).supplied = s.supplied := rfl
@[simp] theorem State.jump_drawn (s : State) (t : Word) : (s.jump t).drawn = s.drawn := rfl

/-! ### State.skipIf -/

@[simp] theorem State.skipIf_v (s : State) (c : Bool) : (s.skipIf c).v = s.v := rfl
@[simp] theorem State.skipIf_pc (s : State) (c : Bool) : (s.skipIf c).pc = if c then s.pc + 4 else s.pc + 2 := rfl
@[simp] theorem State.skipIf_i (s : State) (c : Bool) : (s.skipIf c).i = s.i := rfl
@[simp] theorem State.skipIf_dt (s : State) (c : Bool) : (s.skipIf c).dt = s.dt := rfl
@[simp] theorem State.skipIf_st (s : State) (c : Bool) : (s.skipIf c).st = s.st := rfl
@[simp] theorem State.skipIf_sp (s : State) (c : Bool) : (s.skipIf c).sp = s.sp := rfl
@[simp] theorem State.skipIf_stack (s : State) (c : Bool) : (s.skipIf c).stack = s.stack := rfl
@[simp] theorem State.skipIf_fb (s : State) (c : Bool) : (s.skipIf c).fb = s.fb := rfl
@[simp] theorem State.skipIf_mem (s : State) (c : Bool) : (s.skipIf c).mem = s.mem := rfl
@[simp] theorem State.skipIf_status (s : State) (c : Bool) : (s.skipIf c).status = s.status := rfl
@[simp] theorem State.skipIf_cfg (s : State) (c : Bool) : (s.skipIf c).cfg = s.cfg := rfl
@[simp] theorem State.skipIf_supplied (s : State) (c : Bool) : (s.skipIf c).supplied = s.supplied := rfl
@[simp] theorem State.skipIf_drawn (s : State) (c : Bool) : (s.skipIf c).drawn = s.drawn := rfl

/-! ### State.setMem -/

@[simp] theorem State.setMem_v (s : State) (m : Memory) : (s.setMem m).v = s.v := rfl
@[simp] theorem State.setMem_pc (s : State) (m : Memory) : (s.setMem m).pc = s.pc := rfl
@[simp] theorem State.setMem_i (s : State) (m : Memory) : (s.setMem m).i = s.i := rfl
@[simp] theorem State.setMem_dt (s : State) (m : Memory) : (s.setMem m).dt = s.dt := rfl
@[simp] theorem State.setMem_st (s : State) (m : Memory) : (s.setMem m).st = s.st := rfl
@[simp] theorem State.setMem_sp (s : State) (m : Memory) : (s.setMem m).sp = s.sp := rfl
@[simp] theorem State.setMem_stack (s : State) (m : Memory) : (s.setMem m).stack = s.stack := rfl
@[simp] theorem State.setMem_fb (s : State) (m : Memory) : (s.setMem m).fb = s.fb := rfl
@[simp] theorem State.setMem_mem (s : State) (m : Memory) : (s.setMem m).mem = m := rfl
@[simp] theorem State.setMem_status (s : State) (m : Memory) : (s.setMem m).status = s.status := rfl
@[simp] theorem State.setMem_cfg (s : State) (m : Memory) : (s.setMem m).cfg = s.cfg := rfl
@[simp] theorem State.setMem_supplied (s : State) (m : Memory) : (s.setMem m).supplied = s.supplied := rfl
@[simp] theorem State.setMem_drawn (s : State) (m : Memory) : (s.setMem m).drawn = s.drawn := rfl

/-! ### State.push -/

@[simp] theorem State.push_v (s : State) (r : Word) : (s.push r).v = s.v := rfl
@[simp] theorem State.push_pc (s : State) (r : Word) : (s.push r).pc = s.pc := rfl
@[simp] theorem State.push_i (s : State) (r : Word) : (s.push r).i = s.i := rfl
@[simp] theorem State.push_dt (s : State) (r : Word) : (s.push r).dt = s.dt := rfl
@[simp] theorem State.push_st (s : State) (r : Word) : (s.push r).st = s.st := rfl
@[simp] theorem State.push_sp (s : State) (r : Word) : (s.push r).sp = s.sp + 1 := rfl
@[simp] theorem State.push_stack (s : State) (r : Word) : (s.push r).stack = s.stack.setIfInBounds s.sp.toNat r := rfl
@[simp] theorem State.push_fb (s : State) (r : Word) : (s.push r).fb = s.fb := rfl
@[simp] theorem State.push_mem (s : State) (r : Word) : (s.push r).mem = s.mem := rfl
@[simp] theorem State.push_status (s : State) (r : Word) : (s.push r).status = s.status := rfl
@[simp] theorem State.push_cfg (s : State) (r : Word) : (s.push r).cfg = s.cfg := rfl
@[simp] theorem State.push_supplied (s : State) (r : Word) : (s.push r).supplied = s.supplied := rfl
@[simp] theorem State.push_drawn (s : State) (r : Word) : (s.push r).drawn = s.drawn := rfl

/-! ### State.dropTop -/

@[simp] theorem State.dropTop_v (s : State) : (s.dropTop).v = s.v := rfl
@[simp] theorem State.dropTop_pc (s : State) : (s.dropTop).pc = s.pc := rfl
@[simp] theorem State.dropTop_i (s : State) : (s.dropTop).i = s.i := rfl
@[simp] theorem State.dropTop_dt (s : State) : (s.dropTop).dt = s.dt := rfl
@[simp] theorem State.dropTop_st (s : State) : (s.dropTop).st = s.st := rfl
@[simp] theorem State.dropTop_sp (s : State) : (s.dropTop).sp = s.sp - 1 := rfl
@[simp] theorem State.dropTop_stack (s : State) : (s.dropTop).stack = s.stack := rfl
@[simp] theorem State.dropTop_fb (s : State) : (s.dropTop).fb = s.fb := rfl
@[simp] theorem State.dropTop_mem (s : State) : (s.dropTop).mem = s.mem := rfl
@[simp] theorem State.dropTop_status (s : State) : (s.dropTop).status = s.status := rfl
@[simp] theorem State.dropTop_cfg (s : State) : (s.dropTop).cfg = s.cfg := rfl
@[simp] theorem State.dropTop_supplied (s : State) : (s.dropTop).supplied = s.supplied := rfl
@[simp] theorem State.dropTop_drawn (s : State) : (s.dropTop).drawn = s.drawn := rfl

/-! ### State.writeRegs -/

@[simp] theorem State.writeRegs_v (s : State) (bs : List Byte) :
    (s.writeRegs bs).v = Vector.ofFn fun k : Fin 16 => bs[k.val]?.getD s.v[k] := rfl
@[simp] theorem State.writeRegs_pc (s : State) (bs : List Byte) : (s.writeRegs bs).pc = s.pc := rfl
@[simp] theorem State.writeRegs_i (s : State) (bs : List Byte) : (s.writeRegs bs).i = s.i := rfl
@[simp] theorem State.writeRegs_dt (s : State) (bs : List Byte) : (s.writeRegs bs).dt = s.dt := rfl
@[simp] theorem State.writeRegs_st (s : State) (bs : List Byte) : (s.writeRegs bs).st = s.st := rfl
@[simp] theorem State.writeRegs_sp (s : State) (bs : List Byte) : (s.writeRegs bs).sp = s.sp := rfl
@[simp] theorem State.writeRegs_stack (s : State) (bs : List Byte) : (s.writeRegs bs).stack = s.stack := rfl
@[simp] theorem State.writeRegs_fb (s : State) (bs : List Byte) : (s.writeRegs bs).fb = s.fb := rfl
@[simp] theorem State.writeRegs_mem (s : State) (bs : List Byte) : (s.writeRegs bs).mem = s.mem := rfl
@[simp] theorem State.writeRegs_status (s : State) (bs : List Byte) : (s.writeRegs bs).status = s.status := rfl
@[simp] theorem State.writeRegs_cfg (s : State) (bs : List Byte) : (s.writeRegs bs).cfg = s.cfg := rfl
@[simp] theorem State.writeRegs_supplied (s : State) (bs : List Byte) : (s.writeRegs bs).supplied = s.supplied := rfl
@[simp] theorem State.writeRegs_drawn (s : State) (bs : List Byte) : (s.writeRegs bs).drawn = s.drawn := rfl

/-! ### State.writeCanvas -/

@[simp] theorem State.writeCanvas_v (s : State) (c : Canvas) :
    (s.writeCanvas c).v = s.v.set regF.toNat (flagByte c.2) := rfl
@[simp] theorem State.writeCanvas_pc (s : State) (c : Canvas) : (s.writeCanvas c).pc = s.pc := rfl
@[simp] theorem State.writeCanvas_i (s : State) (c : Canvas) : (s.writeCanvas c).i = s.i := rfl
@[simp] theorem State.writeCanvas_dt (s : State) (c : Canvas) : (s.writeCanvas c).dt = s.dt := rfl
@[simp] theorem State.writeCanvas_st (s : State) (c : Canvas) : (s.writeCanvas c).st = s.st := rfl
@[simp] theorem State.writeCanvas_sp (s : State) (c : Canvas) : (s.writeCanvas c).sp = s.sp := rfl
@[simp] theorem State.writeCanvas_stack (s : State) (c : Canvas) : (s.writeCanvas c).stack = s.stack := rfl
@[simp] theorem State.writeCanvas_fb (s : State) (c : Canvas) : (s.writeCanvas c).fb = c.1 := rfl
@[simp] theorem State.writeCanvas_mem (s : State) (c : Canvas) : (s.writeCanvas c).mem = s.mem := rfl
@[simp] theorem State.writeCanvas_status (s : State) (c : Canvas) : (s.writeCanvas c).status = s.status := rfl
@[simp] theorem State.writeCanvas_cfg (s : State) (c : Canvas) : (s.writeCanvas c).cfg = s.cfg := rfl
@[simp] theorem State.writeCanvas_supplied (s : State) (c : Canvas) : (s.writeCanvas c).supplied = s.supplied := rfl
@[simp] theorem State.writeCanvas_drawn (s : State) (c : Canvas) : (s.writeCanvas c).drawn = s.drawn := rfl

/-! ### timerTick -/

@[simp] theorem timerTick_v (s : State) : (timerTick s).v = s.v := rfl
@[simp] theorem timerTick_pc (s : State) : (timerTick s).pc = s.pc := rfl
@[simp] theorem timerTick_i (s : State) : (timerTick s).i = s.i := rfl
@[simp] theorem timerTick_dt (s : State) : (timerTick s).dt = if s.dt = 0 then 0 else s.dt - 1 := rfl
@[simp] theorem timerTick_st (s : State) :
    (timerTick s).st = if s.cfg.stCountsDown && s.st != 0 then s.st - 1 else s.st := rfl
@[simp] theorem timerTick_sp (s : State) : (timerTick s).sp = s.sp := rfl
@[simp] theorem timerTick_stack (s : State) : (timerTick s).stack = s.stack := rfl
@[simp] theorem timerTick_fb (s : State) : (timerTick s).fb = s.fb := rfl
@[simp] theorem timerTick_mem (s : State) : (timerTick s).mem = s.mem := rfl
@[simp] theorem timerTick_status (s : State) : (timerTick s).status = s.status := rfl
@[simp] theorem timerTick_cfg (s : State) : (timerTick s).cfg = s.cfg := rfl
@[simp] theorem timerTick_supplied (s : State) : (timerTick s).supplied = s.supplied := rfl
@[simp] theorem timerTick_drawn (s : State) : (timerTick s).drawn = s.drawn := rfl

/-! ### endStep -/

@[simp] theorem endStep_v (s : State) : (endStep s).v = s.v := rfl
@[simp] theorem endStep_pc (s : State) : (endStep s).pc = s.pc := rfl
@[simp] theorem endStep_i (s : State) : (endStep s).i = s.i := rfl
@[simp] theorem endStep_dt (s : State) : (endStep s).dt = s.dt := rfl
@[simp] theorem endStep_st (s : State) : (endStep s).st = s.st := rfl
@[simp] theorem endStep_sp (s : State) : (endStep s).sp = s.sp := rfl
@[simp] theorem endStep_stack (s : State) : (endStep s).stack = s.stack := rfl
@[simp] theorem endStep_fb (s : State) : (endStep s).fb = s.fb := rfl
@[simp] theorem endStep_mem (s : State) : (endStep s).mem = s.mem := rfl
@[simp] theorem endStep_status (s : State) : (endStep s).status = s.status := rfl
@[simp] theorem endStep_cfg (s : State) : (endStep s).cfg = s.cfg := rfl
@[simp] theorem endStep_supplied (s : State) : (endStep s).supplied = s.supplied.tail := rfl
@[simp] theorem endStep_drawn (s : State) : (endStep s).drawn = s.drawn + 1 := rfl

/-! ### raiseFault -/

@[simp] theorem raiseFault_v (c : Cause) (w : Word) (a : Nat) (s : State) :
    (raiseFault c w a s).v = Config.unspecV s.drawn := rfl
@[simp] theorem raiseFault_pc (c : Cause) (w : Word) (a : Nat) (s : State) :
    (raiseFault c w a s).pc = Config.unspecPc s.drawn := rfl
@[simp] theorem raiseFault_i (c : Cause) (w : Word) (a : Nat) (s : State) :
    (raiseFault c w a s).i = Config.unspecI s.drawn := rfl
@[simp] theorem raiseFault_dt (c : Cause) (w : Word) (a : Nat) (s : State) :
    (raiseFault c w a s).dt = Config.unspecDt s.drawn := rfl
@[simp] theorem raiseFault_st (c : Cause) (w : Word) (a : Nat) (s : State) :
    (raiseFault c w a s).st = Config.unspecSt s.drawn := rfl
@[simp] theorem raiseFault_sp (c : Cause) (w : Word) (a : Nat) (s : State) :
    (raiseFault c w a s).sp = Config.unspecSp s.drawn := rfl
@[simp] theorem raiseFault_stack (c : Cause) (w : Word) (a : Nat) (s : State) :
    (raiseFault c w a s).stack = Config.unspecStack s.drawn := rfl
@[simp] theorem raiseFault_fb (c : Cause) (w : Word) (a : Nat) (s : State) :
    (raiseFault c w a s).fb = Config.unspecFb s.drawn := rfl
@[simp] theorem raiseFault_mem (c : Cause) (w : Word) (a : Nat) (s : State) :
    (raiseFault c w a s).mem = Memory.ofBytes s.cfg.font (Config.unspecMem s.drawn) := rfl
@[simp] theorem raiseFault_status (c : Cause) (w : Word) (a : Nat) (s : State) :
    (raiseFault c w a s).status = { halted := true, cause := c, faultPc := s.pc, faultWord := w, faultAddr := BitVec.ofNat 16 a } := rfl
@[simp] theorem raiseFault_cfg (c : Cause) (w : Word) (a : Nat) (s : State) : (raiseFault c w a s).cfg = s.cfg := rfl
@[simp] theorem raiseFault_supplied (c : Cause) (w : Word) (a : Nat) (s : State) :
    (raiseFault c w a s).supplied = s.supplied := rfl
@[simp] theorem raiseFault_drawn (c : Cause) (w : Word) (a : Nat) (s : State) :
    (raiseFault c w a s).drawn = s.drawn := rfl

/-! ### Reading a register after a write -/

theorem State.readV_writeV (s : State) (x r : Reg) (b : Byte) :
    (s.writeV x b).readV r = if r = x then b else s.readV r := by
  simp only [State.readV, State.writeV, Vector.getElem_set]
  by_cases h : x.toNat = r.toNat
  · simp [BitVec.eq_of_toNat_eq h]
  · rw [if_neg h, if_neg fun e => h (by rw [e])]

@[simp] theorem State.readV_writeV_same (s : State) (x : Reg) (b : Byte) : (s.writeV x b).readV x = b := by
  simp [State.readV_writeV]

theorem State.readV_writeV_ne (s : State) {x r : Reg} (b : Byte) (h : r ≠ x) : (s.writeV x b).readV r = s.readV r := by
  simp [State.readV_writeV, h]

theorem State.readV_writeFlag (s : State) (r : Reg) (f : Byte) :
    (s.writeFlag f).readV r = if r = regF then f else s.readV r := s.readV_writeV regF r f

/-- The flag wins when the destination is VF (R321). -/
theorem State.readV_writeResultFlag (s : State) (x r : Reg) (b f : Byte) :
    (s.writeResultFlag x b f).readV r = if r = regF then f else if r = x then b else s.readV r := by
  rw [State.writeResultFlag, State.readV_writeFlag, State.readV_writeV]

/-- Registers k below the number of bytes take their byte, the others keep theirs (R605). -/
theorem State.readV_writeRegs (s : State) (bs : List Byte) (r : Reg) :
    (s.writeRegs bs).readV r = bs[r.toNat]?.getD (s.readV r) := by
  simp [State.readV]

/-! ### Updates that touch no register -/

@[simp] theorem State.writeI_readV (s : State) (a : Word) (k : Reg) : (s.writeI a).readV k = s.readV k := rfl
@[simp] theorem State.advance_readV (s : State) (k : Reg) : (s.advance).readV k = s.readV k := rfl
@[simp] theorem State.jump_readV (s : State) (t : Word) (k : Reg) : (s.jump t).readV k = s.readV k := rfl
@[simp] theorem State.skipIf_readV (s : State) (c : Bool) (k : Reg) : (s.skipIf c).readV k = s.readV k := rfl
@[simp] theorem State.setMem_readV (s : State) (m : Memory) (k : Reg) : (s.setMem m).readV k = s.readV k := rfl
@[simp] theorem State.push_readV (s : State) (r : Word) (k : Reg) : (s.push r).readV k = s.readV k := rfl
@[simp] theorem State.dropTop_readV (s : State) (k : Reg) : (s.dropTop).readV k = s.readV k := rfl
@[simp] theorem timerTick_readV (s : State) (k : Reg) : (timerTick s).readV k = s.readV k := rfl
@[simp] theorem endStep_readV (s : State) (k : Reg) : (endStep s).readV k = s.readV k := rfl

/-! ### Updates that touch no memory -/

@[simp] theorem State.writeV_readByte (s : State) (x : Reg) (b : Byte) (k : Nat) :
    (s.writeV x b).readByte k = s.readByte k := rfl
@[simp] theorem State.writeFlag_readByte (s : State) (f : Byte) (k : Nat) :
    (s.writeFlag f).readByte k = s.readByte k := rfl
@[simp] theorem State.writeResultFlag_readByte (s : State) (x : Reg) (b f : Byte) (k : Nat) :
    (s.writeResultFlag x b f).readByte k = s.readByte k := rfl
@[simp] theorem State.writeI_readByte (s : State) (a : Word) (k : Nat) :
    (s.writeI a).readByte k = s.readByte k := rfl
@[simp] theorem State.advance_readByte (s : State) (k : Nat) :
    (s.advance).readByte k = s.readByte k := rfl
@[simp] theorem State.jump_readByte (s : State) (t : Word) (k : Nat) :
    (s.jump t).readByte k = s.readByte k := rfl
@[simp] theorem State.skipIf_readByte (s : State) (c : Bool) (k : Nat) :
    (s.skipIf c).readByte k = s.readByte k := rfl
@[simp] theorem State.push_readByte (s : State) (r : Word) (k : Nat) :
    (s.push r).readByte k = s.readByte k := rfl
@[simp] theorem State.dropTop_readByte (s : State) (k : Nat) :
    (s.dropTop).readByte k = s.readByte k := rfl
@[simp] theorem State.writeRegs_readByte (s : State) (bs : List Byte) (k : Nat) :
    (s.writeRegs bs).readByte k = s.readByte k := rfl
@[simp] theorem State.writeCanvas_readByte (s : State) (c : Canvas) (k : Nat) :
    (s.writeCanvas c).readByte k = s.readByte k := rfl
@[simp] theorem timerTick_readByte (s : State) (k : Nat) :
    (timerTick s).readByte k = s.readByte k := rfl
@[simp] theorem endStep_readByte (s : State) (k : Nat) :
    (endStep s).readByte k = s.readByte k := rfl

/-- Reading after memory is replaced. -/
theorem State.readByte_setMem (s : State) (m : Memory) (k : Nat) :
    (s.setMem m).readByte k = Memory.read s.cfg.font m k := rfl

/-! ### Reading after a flag, a result and its flag, a canvas -/

theorem State.readV_writeCanvas (s : State) (c : Canvas) (r : Reg) :
    (s.writeCanvas c).readV r = if r = regF then flagByte c.2 else s.readV r :=
  State.readV_writeFlag _ r _

end Sys2Proof.Machine
end

