-- ==== Sys2Proof/Laws/Display.lean ====
section
/-! SUPPORT. What the compositor does to one pixel (spec/45_display.md R701). -/

namespace Sys2Proof.Machine

/-- A toggle flips its pixel and leaves every other. -/
theorem pixel_togglePixel (fb : Framebuffer) (px qx : Fin 64) (py qy : Fin 32) :
    pixel (togglePixel fb px py) qx qy = if qx = px ∧ qy = py then !pixel fb qx qy else pixel fb qx qy := by
  simp only [pixel, togglePixel, Fin.getElem_fin, Vector.getElem_set]
  by_cases hx : qx = px
  · subst hx
    by_cases hy : qy = py
    · subst hy
      simp
    · simp [Fin.val_ne_of_ne (Ne.symm hy), hy]
  · simp [hx, Fin.val_ne_of_ne (Ne.symm hx)]

/-- After a clear every pixel is off (R700). -/
@[simp] theorem pixel_clearFb (px : Fin 64) (py : Fin 32) : pixel clearFb px py = false := by
  simp [pixel, clearFb]

@[simp] theorem drawPixel_fst (c : Canvas) (px : Fin 64) (py : Fin 32) : (drawPixel c px py).1 = togglePixel c.1 px py := rfl

@[simp] theorem drawPixel_snd (c : Canvas) (px : Fin 64) (py : Fin 32) : (drawPixel c px py).2 = (c.2 || pixel c.1 px py) :=
  rfl

@[simp] theorem spriteX_val (vx : Byte) (col : Nat) : (spriteX vx col).val = (vx.toNat + col) % 64 := rfl

@[simp] theorem spriteY_val (vy : Byte) (row : Nat) : (spriteY vy row).val = (vy.toNat + row) % 32 := rfl

/-- Columns `col`, ..., `col + k - 1` of a sprite row have a set bit for the pixel (R701, R702). -/
def colsCover (vx vy b : Byte) (row col k : Nat) (px : Fin 64) (py : Fin 32) : Prop :=
  ∃ j, col ≤ j ∧ j < col + k ∧ b.getLsbD (7 - j) = true ∧ px.val = (vx.toNat + j) % 64 ∧ py.val = (vy.toNat + row) % 32

/-- The columns of a row toggle the pixels they cover, each once, and no other. -/
theorem pixel_drawCols (vx vy b : Byte) (row k col : Nat) (hk : col + k ≤ 8) (c : Canvas) (px : Fin 64) (py : Fin 32) :
    (colsCover vx vy b row col k px py → pixel (drawCols vx vy b row col k c).1 px py = !pixel c.1 px py) ∧
      (¬colsCover vx vy b row col k px py → pixel (drawCols vx vy b row col k c).1 px py = pixel c.1 px py) := by
  induction k generalizing col c with
  | zero => exact ⟨fun ⟨j, h1, h2, _⟩ => absurd h2 (by omega), fun _ => rfl⟩
  | succ k ih =>
    rw [drawCols]
    obtain ⟨i1, i2⟩ :=
      ih (col + 1) (by omega) (if spriteBit b col then drawPixel c (spriteX vx col) (spriteY vy row) else c)
    by_cases hd : b.getLsbD (7 - col) = true ∧ px.val = (vx.toNat + col) % 64 ∧ py.val = (vy.toNat + row) % 32
    · rw [i2 (by rintro ⟨j, h1, h2, -, h4, -⟩; omega), if_pos (show spriteBit b col = true from hd.1), drawPixel_fst,
        pixel_togglePixel, if_pos ⟨Fin.ext hd.2.1, Fin.ext hd.2.2⟩]
      exact ⟨fun _ => rfl, fun h => absurd ⟨col, by omega, by omega, hd⟩ h⟩
    · have hp : pixel (if spriteBit b col then drawPixel c (spriteX vx col) (spriteY vy row) else c).1 px py =
          pixel c.1 px py := by
        split
        · rename_i hb
          rw [drawPixel_fst, pixel_togglePixel, if_neg]
          rintro ⟨rfl, rfl⟩
          exact hd ⟨hb, rfl, rfl⟩
        · rfl
      rw [hp] at i1 i2
      refine ⟨fun ⟨j, h1, h2, h3⟩ => i1 ⟨j, ?_, by omega, h3⟩,
        fun h => i2 fun ⟨j, h1, h2, h3⟩ => h ⟨j, by omega, by omega, h3⟩⟩
      rcases Nat.lt_or_ge col j with g | g
      · exact g
      · obtain rfl : j = col := by omega
        exact absurd h3 hd

/-- The columns of a row note a collision exactly when one was noted before or they cover a pixel that is on. -/
theorem drawCols_collision (vx vy b : Byte) (row k col : Nat) (hk : col + k ≤ 8) (c : Canvas) :
    (drawCols vx vy b row col k c).2 = true ↔
      c.2 = true ∨ ∃ px py, colsCover vx vy b row col k px py ∧ pixel c.1 px py = true := by
  induction k generalizing col c with
  | zero =>
    refine ⟨.inl, ?_⟩
    rintro (h | ⟨_, _, ⟨j, h1, h2, _⟩, _⟩)
    · exact h
    · omega
  | succ k ih =>
    rw [drawCols, ih (col + 1) (by omega)]
    have key : ∀ px py, colsCover vx vy b row (col + 1) k px py →
        pixel (if spriteBit b col then drawPixel c (spriteX vx col) (spriteY vy row) else c).1 px py =
          pixel c.1 px py := by
      rintro px py ⟨j, h1, h2, h3, h4, h5⟩
      split
      · rw [drawPixel_fst, pixel_togglePixel, if_neg]
        rintro ⟨e, _⟩
        have := congrArg Fin.val e
        simp only [spriteX_val] at this
        omega
      · rfl
    constructor
    · rintro (h | ⟨px, py, h1, h2⟩)
      · split at h
        · rename_i hb
          rw [drawPixel_snd, Bool.or_eq_true] at h
          rcases h with h | h
          · exact .inl h
          · exact .inr ⟨_, _, ⟨col, by omega, by omega, hb, rfl, rfl⟩, h⟩
        · exact .inl h
      · rw [key px py h1] at h2
        obtain ⟨j, g1, g2, g3⟩ := h1
        exact .inr ⟨px, py, ⟨j, by omega, by omega, g3⟩, h2⟩
    · rintro (h | ⟨px, py, ⟨j, g1, g2, g3, g4, g5⟩, h2⟩)
      · left
        split <;> simp [h]
      · rcases Nat.lt_or_ge col j with g | g
        · have hc : colsCover vx vy b row (col + 1) k px py := ⟨j, by omega, by omega, g3, g4, g5⟩
          exact .inr ⟨px, py, hc, by rw [key px py hc]; exact h2⟩
        · obtain rfl : j = col := by omega
          left
          rw [if_pos (show spriteBit b j = true from g3), drawPixel_snd,
            ← (Fin.ext g4 : px = spriteX vx j), ← (Fin.ext g5 : py = spriteY vy row), h2, Bool.or_true]

end Sys2Proof.Machine
end

