-- ==== Sys2Proof/Laws/Memory.lean ====
section
/-! SUPPORT. The laws of memory as data: a read after a write, in any list, and the canonical form that every operation
keeps. -/

namespace Sys2Proof.Machine

theorem Memory.lookup_insert (a b : Nat) (v : Byte) (m : Memory) :
    Memory.lookup (Memory.insert a v m) b = if b = a then some v else Memory.lookup m b := by
  induction m with
  | nil => simp [Memory.insert, Memory.lookup, eq_comm]
  | cons c m ih =>
    unfold Memory.insert
    split
    · simp [Memory.lookup, eq_comm]
    · split
      · rename_i h
        subst h
        by_cases hb : b = c.1
        · simp [Memory.lookup, hb]
        · simp [Memory.lookup, hb, Ne.symm hb]
      · rename_i h1 h2
        by_cases hb : b = a
        · subst hb
          simp [Memory.lookup, Ne.symm h2, ih]
        · simp [Memory.lookup, ih, hb]

theorem Memory.lookup_erase (a b : Nat) (m : Memory) :
    Memory.lookup (Memory.erase a m) b = if b = a then none else Memory.lookup m b := by
  unfold Memory.erase
  induction m with
  | nil => simp [Memory.lookup]
  | cons c m ih =>
    by_cases hc : c.1 = a
    · by_cases hb : b = a
      · simp_all
      · simp_all [Memory.lookup, Ne.symm hb]
    · by_cases hb : b = a
      · simp_all [Memory.lookup]
      · simp_all [Memory.lookup]

/-- A read gives the byte last written there, and a write leaves every other address alone (R220). -/
theorem Memory.read_write (font : Vector Byte 80) (m : Memory) (a b : Nat) (v : Byte) :
    Memory.read font (Memory.write font m a v) b = if b = a then v else Memory.read font m b := by
  unfold Memory.write Memory.read
  split
  · rename_i h
    by_cases hb : b = a
    · simp [Memory.lookup_erase, hb, h]
    · simp [Memory.lookup_erase, hb]
  · by_cases hb : b = a
    · simp [Memory.lookup_insert, hb]
    · simp [Memory.lookup_insert, hb]

/-- An address of a memory that lists nothing reads as its reset contents (R901, R902). -/
@[simp] theorem Memory.read_nil (font : Vector Byte 80) (a : Nat) :
    Memory.read font [] a = Memory.unlisted font a := rfl

theorem Memory.mem_insert {a : Nat} {v : Byte} {m : Memory} {c : Host.Cell} (h : c ∈ Memory.insert a v m) :
    c = (a, v) ∨ c ∈ m := by
  induction m with
  | nil => simpa [Memory.insert] using h
  | cons d m ih =>
    unfold Memory.insert at h
    split at h
    · simpa using h
    · split at h
      · rcases List.mem_cons.1 h with rfl | h
        · exact .inl rfl
        · exact .inr (List.mem_cons_of_mem _ h)
      · rcases List.mem_cons.1 h with rfl | h
        · exact .inr (List.mem_cons_self ..)
        · exact (ih h).imp_right (List.mem_cons_of_mem _)

theorem Memory.insert_pairwise {a : Nat} {v : Byte} {m : Memory}
    (h : List.Pairwise (fun c d => c.1 < d.1) m) :
    List.Pairwise (fun c d => c.1 < d.1) (Memory.insert a v m) := by
  induction m with
  | nil => simp [Memory.insert]
  | cons c m ih =>
    obtain ⟨hc, hm⟩ := List.pairwise_cons.1 h
    unfold Memory.insert
    split
    · rename_i hlt
      refine List.pairwise_cons.2 ⟨fun d hd => ?_, h⟩
      rcases List.mem_cons.1 hd with rfl | hd
      · exact hlt
      · exact lt_trans hlt (hc d hd)
    · split
      · rename_i heq
        exact List.pairwise_cons.2 ⟨fun d hd => heq ▸ hc d hd, hm⟩
      · rename_i h1 h2
        refine List.pairwise_cons.2 ⟨fun d hd => ?_, ih hm⟩
        rcases Memory.mem_insert hd with rfl | hd
        · exact lt_of_le_of_ne (not_lt.1 h1) (Ne.symm h2)
        · exact hc d hd

/-- Writing a byte inside the array keeps the canonical form. -/
theorem Memory.write_wf {font : Vector Byte 80} {m : Memory} {a : Nat} {v : Byte}
    (h : Memory.wf font m) (ha : a < Config.memSize) : Memory.wf font (Memory.write font m a v) := by
  unfold Memory.write
  split
  · exact ⟨h.1.filter _, fun c hc => h.2 c (List.mem_of_mem_filter hc)⟩
  · rename_i hv
    refine ⟨Memory.insert_pairwise h.1, fun c hc => ?_⟩
    rcases Memory.mem_insert hc with rfl | hc
    · exact ⟨ha, hv⟩
    · exact h.2 c hc

/-- The memory built from a byte for every address is canonical. -/
theorem Memory.ofBytes_wf (font : Vector Byte 80) (f : Nat → Byte) : Memory.wf font (Memory.ofBytes font f) := by
  unfold Memory.ofBytes
  refine ⟨?_, fun c hc => ?_⟩
  · refine List.Pairwise.filterMap _ ?_ List.pairwise_lt_range
    intro a a' haa c hc d hd
    split at hc <;> simp at hc
    split at hd <;> simp at hd
    subst hc hd
    exact haa
  · obtain ⟨a, ha, hc⟩ := List.mem_filterMap.1 hc
    split at hc
    · simp at hc
    · rename_i hne
      simp at hc
      subst hc
      exact ⟨List.mem_range.1 ha, hne⟩

/-- The reset memory is canonical. -/
theorem State.resetWith_wf (cfg : Config.Params) :
    Memory.wf (State.resetWith cfg).cfg.font (State.resetWith cfg).mem :=
  ⟨List.Pairwise.nil, fun _ h => absurd h (by simp [State.resetWith])⟩

theorem State.reset_wf : Memory.wf State.reset.cfg.font State.reset.mem := State.resetWith_wf _

end Sys2Proof.Machine
end

