-- ==== Sys2Proof/Laws/Ops.lean ====
section
/-! SUPPORT. What each shared operation does, said once: the memory unit, the call stack, taking a fault, the tick, the fetch
and the step around exec. -/

namespace Sys2Proof.Machine

/-! ### The memory unit -/

/-- MemRead inside the array (R210). -/
theorem memRead_ok (s : State) {a : Nat} (h : a < 0x1000) : memRead s a = .ok (s.readByte a) := if_pos h

/-- MemRead beyond the array (R210). -/
theorem memRead_error (s : State) {a : Nat} (h : 0x1000 ≤ a) : memRead s a = .error a := if_neg (not_lt.2 h)

/-- A read of n bytes that all lie in the array. -/
theorem memReads_ok (s : State) (n a : Nat) (h : n = 0 ∨ a + n ≤ 0x1000) :
    memReads s a n = .ok ((List.range n).map fun k => s.readByte (a + k)) := by
  induction n generalizing a with
  | zero => rfl
  | succ n ih =>
    have ha : a < 0x1000 := by omega
    rw [memReads, memRead_ok s ha, ih (a + 1) (by omega), List.range_succ_eq_map]
    simp [Function.comp_def, Nat.add_comm, Nat.add_left_comm]

/-- A read that leaves the array faults at its first address beyond it (R804). -/
theorem memReads_error (s : State) (n a : Nat) (hn : n ≠ 0) (h : 0x1000 < a + n) :
    memReads s a n = .error (max a 0x1000) := by
  induction n generalizing a with
  | zero => exact absurd rfl hn
  | succ n ih =>
    rw [memReads]
    by_cases ha : a < 0x1000
    · rw [memRead_ok s ha, ih (a + 1) (by omega) (by omega)]
      simp only [Except.error.injEq]
      omega
    · rw [memRead_error s (by omega)]
      simp only [Except.error.injEq]
      omega

/-- A write of bytes that all lie in the array changes memory alone, and in it those bytes alone. -/
theorem memWrites_ok (s : State) (bs : List Byte) (a : Nat) (h : bs = [] ∨ a + bs.length ≤ 0x1000) :
    ∃ m, memWrites s a bs = .ok (s.setMem m) ∧
      (Memory.wf s.cfg.font s.mem → Memory.wf s.cfg.font m) ∧
      ∀ b, Memory.read s.cfg.font m b = if a ≤ b then bs[b - a]?.getD (s.readByte b) else s.readByte b := by
  induction bs generalizing s a with
  | nil => exact ⟨s.mem, rfl, id, fun b => by simp [State.readByte]⟩
  | cons v bs ih =>
    rw [List.length_cons] at h
    have ha : a < Config.memSize := by simp only [Config.memSize]; simp at h; omega
    obtain ⟨m, hm, hwf, hr⟩ := ih (s.setMem (Memory.write s.cfg.font s.mem a v)) (a + 1) (.inr (by simp at h; omega))
    simp only [State.setMem_cfg, State.setMem_mem, State.readByte_setMem, Memory.read_write] at hwf hr
    refine ⟨m, by rw [memWrites, memWrite, if_pos ha]; exact hm, fun w => hwf (Memory.write_wf w ha), fun b => ?_⟩
    rw [hr b]
    rcases Nat.lt_trichotomy b a with hb | rfl | hb
    · rw [if_neg (by omega), if_neg (by omega), if_neg (by omega), State.readByte]
    · simp
    · obtain ⟨k, rfl⟩ : ∃ k, b = a + 1 + k := ⟨b - (a + 1), by omega⟩
      have e : a + 1 + k ≠ a := by omega
      simp only [e, if_false, show a + 1 ≤ a + 1 + k by omega, show a ≤ a + 1 + k by omega, if_true,
        show a + 1 + k - a = k + 1 by omega, show a + 1 + k - (a + 1) = k by omega, List.getElem?_cons_succ,
        State.readByte]

/-- A write that leaves the array faults at its first address beyond it (R804). -/
theorem memWrites_error (s : State) (bs : List Byte) (a : Nat) (hn : bs ≠ []) (h : 0x1000 < a + bs.length) :
    memWrites s a bs = .error (max a 0x1000) := by
  induction bs generalizing s a with
  | nil => exact absurd rfl hn
  | cons v bs ih =>
    rw [memWrites, memWrite]
    by_cases ha : a < Config.memSize
    · rw [if_pos ha]
      simp only [Config.memSize] at ha
      rw [List.length_cons] at h
      have hb : bs ≠ [] := by rintro rfl; simp at h; omega
      refine (ih _ (a + 1) hb (by omega)).trans ?_
      simp only [Except.error.injEq]
      omega
    · rw [if_neg ha]
      simp only [Config.memSize] at ha
      simp only [Except.error.injEq]
      omega

/-- What the shared store does: memory and PC change, or MEM_RANGE is raised (R603, R604). -/
theorem storeAtI_ok (i : Instr) (s : State) (bs : List Byte) (h : bs = [] ∨ s.i.toNat + bs.length ≤ 0x1000) :
    ∃ m, storeAtI i bs s = (s.setMem m).advance ∧
      (Memory.wf s.cfg.font s.mem → Memory.wf s.cfg.font m) ∧
      ∀ b, Memory.read s.cfg.font m b =
        if s.i.toNat ≤ b then bs[b - s.i.toNat]?.getD (s.readByte b) else s.readByte b := by
  obtain ⟨m, hm, hwf, hr⟩ := memWrites_ok s bs s.i.toNat h
  exact ⟨m, by rw [storeAtI, State.indexAddr, hm], hwf, hr⟩

theorem storeAtI_error (i : Instr) (s : State) (bs : List Byte) (hn : bs ≠ []) (h : 0x1000 < s.i.toNat + bs.length) :
    storeAtI i bs s = raiseRange i (max s.i.toNat 0x1000) s := by
  rw [storeAtI, State.indexAddr, memWrites_error s bs _ hn h]

@[simp] theorem State.length_regsTo (s : State) (x : Reg) : (s.regsTo x).length = x.toNat + 1 := by
  simp only [State.regsTo, List.length_take, Vector.length_toList]
  omega

/-- The k-th of V0..Vx is Vk (R604). -/
theorem State.regsTo_getElem? (s : State) (x : Reg) (k : Nat) (h : k ≤ x.toNat) :
    (s.regsTo x)[k]? = some (s.readV (BitVec.ofNat 4 k)) := by
  have hk : k < 16 := by omega
  simp [State.regsTo, State.readV, Nat.lt_succ_of_le h, Nat.mod_eq_of_lt hk]

/-! ### The call stack -/

/-- A push writes the slot SP names and no other (R120). -/
theorem State.stackSlot_push (s : State) (r : Word) (j : Nat) (h : s.sp.toNat < 16) :
    (s.push r).stackSlot j = if j = s.sp.toNat then r else s.stackSlot j := by
  simp only [State.stackSlot, State.push_stack]
  by_cases hj : j < 16
  · rw [dif_pos hj]
    by_cases e : j = s.sp.toNat
    · subst e
      simp
    · simp [e, hj, Ne.symm e]
  · rw [dif_neg hj, if_neg (by omega), dif_neg hj]

/-! ### The fetch -/

/-- A fetch at a PC that may be fetched from reads two bytes, big-endian (R213, R330). -/
theorem fetch_ok (s : State) (hpc : s.pc.toNat + 1 < 0x1000) (hodd : s.cfg.oddPcFaults = true → s.pc.toNat % 2 = 0) :
    fetch s = .ok (wordOfBytes (s.readByte s.pc.toNat) (s.readByte (s.pc.toNat + 1))) := by
  have h : ¬(s.cfg.oddPcFaults && s.pc.toNat % 2 == 1) = true := by
    simp only [Bool.and_eq_true, beq_iff_eq, not_and]
    intro ho
    have := hodd ho
    omega
  rw [fetch, if_neg h, memRead_ok s (by omega), memRead_ok s hpc]

/-- A fetch at an odd PC where that faults (R214). -/
theorem fetch_misaligned (s : State) (ho : s.cfg.oddPcFaults = true) (h : s.pc.toNat % 2 = 1) :
    fetch s = .error (.misalignedFetch, 0) := by
  rw [fetch, if_pos (by simp [ho, h])]

/-- A fetch beyond the array: byte PC before byte PC + 1 (R210, R804). -/
theorem fetch_range (s : State) (hpc : 0x1000 ≤ s.pc.toNat + 1) (hodd : s.cfg.oddPcFaults = true → s.pc.toNat % 2 = 0) :
    fetch s = .error (.memRange, max s.pc.toNat 0x1000) := by
  have h : ¬(s.cfg.oddPcFaults && s.pc.toNat % 2 == 1) = true := by
    simp only [Bool.and_eq_true, beq_iff_eq, not_and]
    intro ho
    have := hodd ho
    omega
  rw [fetch, if_neg h]
  by_cases hp : s.pc.toNat < 0x1000
  · rw [memRead_ok s hp, memRead_error s hpc, show s.pc.toNat + 1 = max s.pc.toNat 0x1000 by omega]
  · rw [memRead_error s (by omega), show max s.pc.toNat 0x1000 = s.pc.toNat by omega]

/-- What a fetch can answer: a word with PC and PC + 1 in the array, or one of its two faults. -/
theorem fetch_cases (s : State) :
    (fetch s = .ok (wordOfBytes (s.readByte s.pc.toNat) (s.readByte (s.pc.toNat + 1))) ∧
      s.pc.toNat + 1 < 0x1000 ∧ (s.cfg.oddPcFaults = true → s.pc.toNat % 2 = 0)) ∨
    (fetch s = .error (.misalignedFetch, 0) ∧ s.cfg.oddPcFaults = true ∧ s.pc.toNat % 2 = 1) ∨
    (fetch s = .error (.memRange, max s.pc.toNat 0x1000) ∧ 0x1000 ≤ s.pc.toNat + 1 ∧
      (s.cfg.oddPcFaults = true → s.pc.toNat % 2 = 0)) := by
  by_cases ho : s.cfg.oddPcFaults = true ∧ s.pc.toNat % 2 = 1
  · exact .inr (.inl ⟨fetch_misaligned s ho.1 ho.2, ho⟩)
  · have hodd : s.cfg.oddPcFaults = true → s.pc.toNat % 2 = 0 := fun h => by
      rcases Nat.mod_two_eq_zero_or_one s.pc.toNat with e | e
      · exact e
      · exact absurd ⟨h, e⟩ ho
    by_cases hpc : s.pc.toNat + 1 < 0x1000
    · exact .inl ⟨fetch_ok s hpc hodd, hpc, hodd⟩
    · exact .inr (.inr ⟨fetch_range s (by omega) hodd, by omega, hodd⟩)

/-! ### The step around exec -/

/-- A step of a halted core (R332). -/
theorem step_halted {s : State} (h : s.status.halted = true) : step s = .next s := by
  rw [step, runStep, if_pos h]

/-- A step whose fetch faults (R330). -/
theorem step_fetch_error {s : State} {c : Cause} {a : Nat} (h : s.status.halted = false) (hf : fetch s = .error (c, a)) :
    step s = .next (endStep (raiseFault c 0 a s)) := by
  rw [step, runStep, if_neg (by simp [h]), hf]

/-- A step whose fetch succeeds: the tick, the dispatch, the end of the step (R330). -/
theorem step_fetch_ok {s : State} {w : Word} (h : s.status.halted = false) (hf : fetch s = .ok w) :
    step s = thenEndStep (dispatchWord w (timerTick s)) := by
  rw [step, runStep, if_neg (by simp [h]), hf]

end Sys2Proof.Machine
end

