-- ==== Sys2Proof/Laws/PerInstr.lean ====
section
/-! SUPPORT. The per-instruction family RowMatch: the word of every instruction matches the instruction's own row of the
opcode table (spec/30_encoding.md R304), whatever its operands. -/

namespace Sys2Proof

/-- Under the mask of a row op, nnn, an encoded word keeps its opcode and nothing else. -/
theorem encodeNnn_mask (op : Nibble) (nnn : Addr) : encodeNnn op nnn &&& 0xF000 = op ++ 0#12 := by
  rw [encodeNnn, show (0xF000 : Word) = BitVec.allOnes 4 ++ 0#12 by decide, BitVec.and_append, BitVec.and_allOnes,
    BitVec.and_zero]

/-- The same for a row op, x, kk. -/
theorem encodeXkk_mask (op : Nibble) (x : Reg) (kk : Byte) : encodeXkk op x kk &&& 0xF000 = op ++ 0#4 ++ 0#8 := by
  rw [encodeXkk, show (0xF000 : Word) = BitVec.allOnes 4 ++ 0#4 ++ 0#8 by decide, BitVec.and_append, BitVec.and_append,
    BitVec.and_allOnes, BitVec.and_zero, BitVec.and_zero]

/-- A row that fixes kk keeps the opcode and kk. -/
theorem encodeXkk_mask_kk (op : Nibble) (x : Reg) (kk : Byte) : encodeXkk op x kk &&& 0xF0FF = op ++ 0#4 ++ kk := by
  rw [encodeXkk, show (0xF0FF : Word) = BitVec.allOnes 4 ++ 0#4 ++ BitVec.allOnes 8 by decide, BitVec.and_append,
    BitVec.and_append, BitVec.and_allOnes, BitVec.and_allOnes, BitVec.and_zero]

/-- A row that fixes n keeps the opcode and n. -/
theorem encodeXyn_mask (op : Nibble) (x y : Reg) (n : Nibble) :
    encodeXyn op x y n &&& 0xF00F = op ++ 0#4 ++ 0#4 ++ n := by
  rw [encodeXyn, show (0xF00F : Word) = BitVec.allOnes 4 ++ 0#4 ++ 0#4 ++ BitVec.allOnes 4 by decide, BitVec.and_append,
    BitVec.and_append, BitVec.and_append, BitVec.and_allOnes, BitVec.and_allOnes, BitVec.and_zero, BitVec.and_zero]

/-- The row of Dxyn keeps the opcode. -/
theorem encodeXyn_mask_op (op : Nibble) (x y : Reg) (n : Nibble) :
    encodeXyn op x y n &&& 0xF000 = op ++ 0#4 ++ 0#4 ++ 0#4 := by
  rw [encodeXyn, show (0xF000 : Word) = BitVec.allOnes 4 ++ 0#4 ++ 0#4 ++ 0#4 by decide, BitVec.and_append,
    BitVec.and_append, BitVec.and_append, BitVec.and_allOnes, BitVec.and_zero, BitVec.and_zero, BitVec.and_zero]

end Sys2Proof

namespace Sys2Proof.Laws.RowMatch

/-- The instruction's word matches the instruction's row, which is a row of the table. -/
def Statement (i : Instr) : Prop := i.row ∈ opcodeTable ∧ encode i &&& i.row.mask = i.row.code

theorem cls : Statement .cls := ⟨List.mem_of_getElem? (i := 0) rfl, rfl⟩
theorem ret : Statement .ret := ⟨List.mem_of_getElem? (i := 1) rfl, rfl⟩
theorem jp (nnn : Addr) : Statement (.jp nnn) := ⟨List.mem_of_getElem? (i := 2) rfl, (encodeNnn_mask ..).trans rfl⟩
theorem call (nnn : Addr) : Statement (.call nnn) := ⟨List.mem_of_getElem? (i := 3) rfl, (encodeNnn_mask ..).trans rfl⟩
theorem seVxKk (x : Reg) (kk : Byte) : Statement (.seVxKk x kk) :=
  ⟨List.mem_of_getElem? (i := 4) rfl, (encodeXkk_mask ..).trans rfl⟩
theorem sneVxKk (x : Reg) (kk : Byte) : Statement (.sneVxKk x kk) :=
  ⟨List.mem_of_getElem? (i := 5) rfl, (encodeXkk_mask ..).trans rfl⟩
theorem seVxVy (x y : Reg) : Statement (.seVxVy x y) :=
  ⟨List.mem_of_getElem? (i := 6) rfl, (encodeXyn_mask ..).trans rfl⟩
theorem ldVxKk (x : Reg) (kk : Byte) : Statement (.ldVxKk x kk) :=
  ⟨List.mem_of_getElem? (i := 7) rfl, (encodeXkk_mask ..).trans rfl⟩
theorem addVxKk (x : Reg) (kk : Byte) : Statement (.addVxKk x kk) :=
  ⟨List.mem_of_getElem? (i := 8) rfl, (encodeXkk_mask ..).trans rfl⟩
theorem ldVxVy (x y : Reg) : Statement (.ldVxVy x y) :=
  ⟨List.mem_of_getElem? (i := 9) rfl, (encodeXyn_mask ..).trans rfl⟩
theorem orVxVy (x y : Reg) : Statement (.orVxVy x y) :=
  ⟨List.mem_of_getElem? (i := 10) rfl, (encodeXyn_mask ..).trans rfl⟩
theorem andVxVy (x y : Reg) : Statement (.andVxVy x y) :=
  ⟨List.mem_of_getElem? (i := 11) rfl, (encodeXyn_mask ..).trans rfl⟩
theorem xorVxVy (x y : Reg) : Statement (.xorVxVy x y) :=
  ⟨List.mem_of_getElem? (i := 12) rfl, (encodeXyn_mask ..).trans rfl⟩
theorem addVxVy (x y : Reg) : Statement (.addVxVy x y) :=
  ⟨List.mem_of_getElem? (i := 13) rfl, (encodeXyn_mask ..).trans rfl⟩
theorem subVxVy (x y : Reg) : Statement (.subVxVy x y) :=
  ⟨List.mem_of_getElem? (i := 14) rfl, (encodeXyn_mask ..).trans rfl⟩
theorem shrVx (x y : Reg) : Statement (.shrVx x y) :=
  ⟨List.mem_of_getElem? (i := 15) rfl, (encodeXyn_mask ..).trans rfl⟩
theorem subnVxVy (x y : Reg) : Statement (.subnVxVy x y) :=
  ⟨List.mem_of_getElem? (i := 16) rfl, (encodeXyn_mask ..).trans rfl⟩
theorem shlVx (x y : Reg) : Statement (.shlVx x y) :=
  ⟨List.mem_of_getElem? (i := 17) rfl, (encodeXyn_mask ..).trans rfl⟩
theorem sneVxVy (x y : Reg) : Statement (.sneVxVy x y) :=
  ⟨List.mem_of_getElem? (i := 18) rfl, (encodeXyn_mask ..).trans rfl⟩
theorem gtVxVy (x y : Reg) : Statement (.gtVxVy x y) :=
  ⟨List.mem_of_getElem? (i := 19) rfl, (encodeXyn_mask ..).trans rfl⟩
theorem gteVxVy (x y : Reg) : Statement (.gteVxVy x y) :=
  ⟨List.mem_of_getElem? (i := 20) rfl, (encodeXyn_mask ..).trans rfl⟩
theorem ltVxVy (x y : Reg) : Statement (.ltVxVy x y) :=
  ⟨List.mem_of_getElem? (i := 21) rfl, (encodeXyn_mask ..).trans rfl⟩
theorem lteVxVy (x y : Reg) : Statement (.lteVxVy x y) :=
  ⟨List.mem_of_getElem? (i := 22) rfl, (encodeXyn_mask ..).trans rfl⟩
theorem ldi (nnn : Addr) : Statement (.ldi nnn) := ⟨List.mem_of_getElem? (i := 23) rfl, (encodeNnn_mask ..).trans rfl⟩
theorem jpV0 (nnn : Addr) : Statement (.jpV0 nnn) := ⟨List.mem_of_getElem? (i := 24) rfl, (encodeNnn_mask ..).trans rfl⟩
theorem rnd (x : Reg) (kk : Byte) : Statement (.rnd x kk) :=
  ⟨List.mem_of_getElem? (i := 25) rfl, (encodeXkk_mask ..).trans rfl⟩
theorem drw (x y : Reg) (n : Nibble) : Statement (.drw x y n) :=
  ⟨List.mem_of_getElem? (i := 26) rfl, (encodeXyn_mask_op ..).trans rfl⟩
theorem skp (x : Reg) : Statement (.skp x) := ⟨List.mem_of_getElem? (i := 27) rfl, (encodeXkk_mask_kk ..).trans rfl⟩
theorem sknp (x : Reg) : Statement (.sknp x) := ⟨List.mem_of_getElem? (i := 28) rfl, (encodeXkk_mask_kk ..).trans rfl⟩
theorem ldVxDt (x : Reg) : Statement (.ldVxDt x) :=
  ⟨List.mem_of_getElem? (i := 29) rfl, (encodeXkk_mask_kk ..).trans rfl⟩
theorem getkey (x : Reg) : Statement (.getkey x) :=
  ⟨List.mem_of_getElem? (i := 30) rfl, (encodeXkk_mask_kk ..).trans rfl⟩
theorem ldDtVx (x : Reg) : Statement (.ldDtVx x) :=
  ⟨List.mem_of_getElem? (i := 31) rfl, (encodeXkk_mask_kk ..).trans rfl⟩
theorem ldStVx (x : Reg) : Statement (.ldStVx x) :=
  ⟨List.mem_of_getElem? (i := 32) rfl, (encodeXkk_mask_kk ..).trans rfl⟩
theorem addi (x : Reg) : Statement (.addi x) := ⟨List.mem_of_getElem? (i := 33) rfl, (encodeXkk_mask_kk ..).trans rfl⟩
theorem ldsprt (x : Reg) : Statement (.ldsprt x) :=
  ⟨List.mem_of_getElem? (i := 34) rfl, (encodeXkk_mask_kk ..).trans rfl⟩
theorem ldbcd (x : Reg) : Statement (.ldbcd x) := ⟨List.mem_of_getElem? (i := 35) rfl, (encodeXkk_mask_kk ..).trans rfl⟩
theorem dumpreg (x : Reg) : Statement (.dumpreg x) :=
  ⟨List.mem_of_getElem? (i := 36) rfl, (encodeXkk_mask_kk ..).trans rfl⟩
theorem ldreg (x : Reg) : Statement (.ldreg x) := ⟨List.mem_of_getElem? (i := 37) rfl, (encodeXkk_mask_kk ..).trans rfl⟩

end Sys2Proof.Laws.RowMatch
end

