-- ==== Sys2Proof/Laws/Run.lean ====
section
/-! SUPPORT. Running the core for several steps, one step at a time, and where a run ends. -/

namespace Sys2Proof.Machine

/-- A run whose first step answers a next state goes on from it. -/
theorem run_succ_next {s t : State} (k : Nat) (h : step s = .next t) :
    Host.Core.run core (k + 1) s = Host.Core.run core k t := by
  have h' : core.step s = .next t := h
  simp only [Host.Core.run, h']

/-- A run of no steps. -/
theorem run_zero (s : State) : Host.Core.run core 0 s = .next s := rfl

/-! ### The end of a run (spec/70_reset_and_hazards.md R914) -/

theorem State.endKind_bad (s : State) : s.endKind = some .bad ↔ Safety.bad s := by
  unfold State.endKind Safety.bad
  split
  · simp_all
  · split <;> simp_all

/-- The computed test for a jump to itself says what R914 says of the word at PC. -/
theorem State.atSelfJump_iff (s : State) :
    s.atSelfJump = true ↔
      s.pc.toNat + 1 < 0x1000 ∧ ∃ nnn : Addr, wordAt s = encode (.jp nnn) ∧ nnn.toNat = s.pc.toNat := by
  simp only [State.atSelfJump, Bool.and_eq_true, decide_eq_true_eq, beq_iff_eq]
  refine and_congr_right fun h => ⟨fun hw => ⟨_, hw, ?_⟩, ?_⟩
  · rw [BitVec.toNat_setWidth]
    simp only [Config.memSize] at h
    omega
  · rintro ⟨nnn, hw, hn⟩
    rw [hw, show nnn = s.pc.setWidth 12 by
      apply BitVec.eq_of_toNat_eq
      rw [BitVec.toNat_setWidth]
      omega]

theorem State.endKind_idle (s : State) : s.endKind = some .idle ↔ Safety.idle s := by
  rw [Safety.idle, ← State.atSelfJump_iff]
  unfold State.endKind
  split
  · simp_all
  · split <;> simp_all

/-- A run that has its end here ends here. -/
theorem endWithin_here {s : State} {e : RunEnd} (h : s.endKind = some e) (k : Nat) : endWithin k s = some (e, s) := by
  cases k <;> simp [endWithin, h]

/-- A run of no steps that has no end here has none. -/
theorem endWithin_zero {s : State} (h : s.endKind = none) : endWithin 0 s = none := by
  simp [endWithin, h]

/-- A run that has no end here has the end of the run from its next state. -/
theorem endWithin_succ {s t : State} (h : s.endKind = none) (ht : step s = .next t) (k : Nat) :
    endWithin (k + 1) s = endWithin k t := by
  simp only [endWithin, h, ht]

end Sys2Proof.Machine
end

