-- ==== Sys2Proof/Tests/Slice0.lean ====
section
/-! SUPPORT. The model's own tests: the words of the encoding tables, ill-formed words, one step of every instruction against
a vector of spec/95_test_vectors.md (its id stands in the comment), and a witness for the hypotheses of every statement. -/

namespace Sys2Proof.Tests

open Sys2Proof.Machine Sys2Proof.Safety

/-- The reset state with a word at 0x200. -/
def placed (w : Word) : State := State.reset.placeWord w

/-- The state after one step. -/
def after (s : State) : State :=
  match step s with
  | .next t => t
  | _ => s

/-- The state after executing one instruction, without fetch or tick. -/
def ran (i : Instr) (s : State) : State :=
  match exec i s with
  | .next t => t
  | _ => s

/-- A state whose coming step has the given inputs. -/
def given (s : State) (r : Byte) (k : BitVec 16) (e : Option (BitVec 4)) : State :=
  { s with supplied := [{ rand8 := r, keys := k, keyEvent := e }] }

/-- A byte stored in memory. -/
def poke (s : State) (a : Nat) (b : Byte) : State := s.setMem (Memory.write s.cfg.font s.mem a b)

/-- A pixel switched on. -/
def lit (s : State) (px : Fin 64) (py : Fin 32) : State := { s with fb := s.fb.set px (s.fb[px].set py true) }

/-- Another parameter set. -/
def withCfg (s : State) (f : Config.Params → Config.Params) : State := { s with cfg := f s.cfg }

/-! ### Decoding: a word written out from each row's encoding (spec/30_encoding.md R304, opcode_table.json) -/

theorem test_decode_cls : decodeTableWord 16 0b0000000011100000 = some .cls ∧ encode .cls = 0b0000000011100000 := by decide
theorem test_decode_ret : decodeTableWord 16 0b0000000011101110 = some .ret ∧ encode .ret = 0b0000000011101110 := by decide
theorem test_decode_jp : decodeTableWord 16 0b0001101010111100 = some (.jp 0xABC) ∧ encode (.jp 0xABC) = 0b0001101010111100 := by decide
theorem test_decode_call : decodeTableWord 16 0b0010000100100011 = some (.call 0x123) ∧ encode (.call 0x123) = 0b0010000100100011 := by decide
theorem test_decode_seVxKk : decodeTableWord 16 0b0011001000010000 = some (.seVxKk 2 0x10) ∧ encode (.seVxKk 2 0x10) = 0b0011001000010000 := by decide
theorem test_decode_sneVxKk : decodeTableWord 16 0b0100111111111110 = some (.sneVxKk 0xF 0xFE) ∧ encode (.sneVxKk 0xF 0xFE) = 0b0100111111111110 := by decide
theorem test_decode_seVxVy : decodeTableWord 16 0b0101000100100000 = some (.seVxVy 1 2) ∧ encode (.seVxVy 1 2) = 0b0101000100100000 := by decide
theorem test_decode_ldVxKk : decodeTableWord 16 0b0110001100000111 = some (.ldVxKk 3 7) ∧ encode (.ldVxKk 3 7) = 0b0110001100000111 := by decide
theorem test_decode_addVxKk : decodeTableWord 16 0b0111000011111111 = some (.addVxKk 0 0xFF) ∧ encode (.addVxKk 0 0xFF) = 0b0111000011111111 := by decide
theorem test_decode_ldVxVy : decodeTableWord 16 0b1000000100100000 = some (.ldVxVy 1 2) ∧ encode (.ldVxVy 1 2) = 0b1000000100100000 := by decide
theorem test_decode_orVxVy : decodeTableWord 16 0b1000000100100001 = some (.orVxVy 1 2) ∧ encode (.orVxVy 1 2) = 0b1000000100100001 := by decide
theorem test_decode_andVxVy : decodeTableWord 16 0b1000000100100010 = some (.andVxVy 1 2) ∧ encode (.andVxVy 1 2) = 0b1000000100100010 := by decide
theorem test_decode_xorVxVy : decodeTableWord 16 0b1000000100100011 = some (.xorVxVy 1 2) ∧ encode (.xorVxVy 1 2) = 0b1000000100100011 := by decide
theorem test_decode_addVxVy : decodeTableWord 16 0b1000111100010100 = some (.addVxVy 0xF 1) ∧ encode (.addVxVy 0xF 1) = 0b1000111100010100 := by decide
theorem test_decode_subVxVy : decodeTableWord 16 0b1000000000010101 = some (.subVxVy 0 1) ∧ encode (.subVxVy 0 1) = 0b1000000000010101 := by decide
theorem test_decode_shrVx : decodeTableWord 16 0b1000000000010110 = some (.shrVx 0 1) ∧ encode (.shrVx 0 1) = 0b1000000000010110 := by decide
theorem test_decode_subnVxVy : decodeTableWord 16 0b1000101111000111 = some (.subnVxVy 0xB 0xC) ∧ encode (.subnVxVy 0xB 0xC) = 0b1000101111000111 := by decide
theorem test_decode_shlVx : decodeTableWord 16 0b1000000000001110 = some (.shlVx 0 0) ∧ encode (.shlVx 0 0) = 0b1000000000001110 := by decide
theorem test_decode_sneVxVy : decodeTableWord 16 0b1001000100100000 = some (.sneVxVy 1 2) ∧ encode (.sneVxVy 1 2) = 0b1001000100100000 := by decide
theorem test_decode_gtVxVy : decodeTableWord 16 0b1001000100100001 = some (.gtVxVy 1 2) ∧ encode (.gtVxVy 1 2) = 0b1001000100100001 := by decide
theorem test_decode_gteVxVy : decodeTableWord 16 0b1001000100100010 = some (.gteVxVy 1 2) ∧ encode (.gteVxVy 1 2) = 0b1001000100100010 := by decide
theorem test_decode_ltVxVy : decodeTableWord 16 0b1001000100100011 = some (.ltVxVy 1 2) ∧ encode (.ltVxVy 1 2) = 0b1001000100100011 := by decide
theorem test_decode_lteVxVy : decodeTableWord 16 0b1001000100100100 = some (.lteVxVy 1 2) ∧ encode (.lteVxVy 1 2) = 0b1001000100100100 := by decide
theorem test_decode_ldi : decodeTableWord 16 0b1010001100001111 = some (.ldi 0x30F) ∧ encode (.ldi 0x30F) = 0b1010001100001111 := by decide
theorem test_decode_jpV0 : decodeTableWord 16 0b1011111111111111 = some (.jpV0 0xFFF) ∧ encode (.jpV0 0xFFF) = 0b1011111111111111 := by decide
theorem test_decode_rnd : decodeTableWord 16 0b1100001100001111 = some (.rnd 3 0x0F) ∧ encode (.rnd 3 0x0F) = 0b1100001100001111 := by decide
theorem test_decode_drw : decodeTableWord 16 0b1101000100100101 = some (.drw 1 2 5) ∧ encode (.drw 1 2 5) = 0b1101000100100101 := by decide
theorem test_decode_skp : decodeTableWord 16 0b1110010110011110 = some (.skp 5) ∧ encode (.skp 5) = 0b1110010110011110 := by decide
theorem test_decode_sknp : decodeTableWord 16 0b1110010110100001 = some (.sknp 5) ∧ encode (.sknp 5) = 0b1110010110100001 := by decide
theorem test_decode_ldVxDt : decodeTableWord 16 0b1111000100000111 = some (.ldVxDt 1) ∧ encode (.ldVxDt 1) = 0b1111000100000111 := by decide
theorem test_decode_getkey : decodeTableWord 16 0b1111001100001010 = some (.getkey 3) ∧ encode (.getkey 3) = 0b1111001100001010 := by decide
theorem test_decode_ldDtVx : decodeTableWord 16 0b1111000000010101 = some (.ldDtVx 0) ∧ encode (.ldDtVx 0) = 0b1111000000010101 := by decide
theorem test_decode_ldStVx : decodeTableWord 16 0b1111001000011000 = some (.ldStVx 2) ∧ encode (.ldStVx 2) = 0b1111001000011000 := by decide
theorem test_decode_addi : decodeTableWord 16 0b1111000100011110 = some (.addi 1) ∧ encode (.addi 1) = 0b1111000100011110 := by decide
theorem test_decode_ldsprt : decodeTableWord 16 0b1111000000101001 = some (.ldsprt 0) ∧ encode (.ldsprt 0) = 0b1111000000101001 := by decide
theorem test_decode_ldbcd : decodeTableWord 16 0b1111101000110011 = some (.ldbcd 0xA) ∧ encode (.ldbcd 0xA) = 0b1111101000110011 := by decide
theorem test_decode_dumpreg : decodeTableWord 16 0b1111001101010101 = some (.dumpreg 3) ∧ encode (.dumpreg 3) = 0b1111001101010101 := by decide
theorem test_decode_ldreg : decodeTableWord 16 0b1111001101100101 = some (.ldreg 3) ∧ encode (.ldreg 3) = 0b1111001101100101 := by decide

/-! ### Well-formedness: an ill-formed word of each of the six sets of R306 is refused, by name -/

theorem test_illformed_op0 : Word.wellFormed 0x0123 = false ∧ decodeWord 0x0123 = .error (.illegal 0x0123) := by decide
theorem test_illformed_zero : Word.wellFormed 0x0000 = false ∧ decodeWord 0x0000 = .error (.illegal 0x0000) := by decide
theorem test_illformed_op5 : Word.wellFormed 0x5121 = false ∧ decodeWord 0x5121 = .error (.illegal 0x5121) := by decide
theorem test_illformed_op8 : Word.wellFormed 0x812F = false ∧ decodeWord 0x8128 = .error (.illegal 0x8128) := by decide
theorem test_illformed_op9 : Word.wellFormed 0x9125 = false ∧ decodeWord 0x9125 = .error (.illegal 0x9125) := by decide
theorem test_illformed_opE : Word.wellFormed 0xE000 = false ∧ decodeWord 0xE000 = .error (.illegal 0xE000) := by decide
theorem test_illformed_opF : Word.wellFormed 0xF0FF = false ∧ decodeWord 0xF0FF = .error (.illegal 0xF0FF) := by decide
theorem test_truncated : decode [0x12] = .error .truncated := by decide
theorem test_wellformed : Word.wellFormed 0x8BC7 = true ∧ Instr.wellFormed (.drw 0xF 0xF 0xF) = true := by decide
theorem test_table_has_38_rows : opcodeTable.length = 38 := by decide

/-! ### Reset (vectors S13, M15; R903) -/

theorem test_reset_pc : State.reset.pc = 0x200 := by decide
theorem test_reset_font : State.reset.readByte 0x23 = 0xF0 ∧ State.reset.readByte 0x27 = 0x40 := by decide
theorem test_reset_above_font : State.reset.readByte 0x50 = 0 ∧ State.reset.readByte 0xFFF = 0 := by decide

/-! ### One step of each instruction -/

/-- S1 -/
theorem test_cls : (after (lit (placed 0x00E0) 3 4)).fbPixel 3 4 = false := by decide
/-- J3 -/
theorem test_ret :
    let s := after { (placed 0x00EE) with sp := 1, stack := State.reset.stack.set 0 0x206 };
      s.sp = 0 ∧ s.pc = 0x206 := by
  decide
/-- J4 -/
theorem test_ret_underflow : (after (placed 0x00EE)).statusPort = (true, 3, 0x200, 0x00EE, 0) := by decide
/-- J1 -/
theorem test_jp : (after (placed 0x1208)).pc = 0x208 := by decide
/-- J5 -/
theorem test_call_16th :
    let s := after { (placed 0x2300) with sp := 15 };
      s.sp = 16 ∧ s.stackSlot 15 = 0x202 ∧ s.pc = 0x300 := by
  decide
/-- J6 -/
theorem test_call_overflow :
    (after { (placed 0x2300) with sp := 16 }).statusPort = (true, 2, 0x200, 0x2300, 0) := by
  decide
/-- K1 -/
theorem test_seVxKk : (after ((placed 0x3210).writeV 2 0x10)).pc = 0x204 := by decide
/-- K2 -/
theorem test_seVxKk_not : (after ((placed 0x3210).writeV 2 0x11)).pc = 0x202 := by decide
/-- K4 -/
theorem test_sneVxKk : (after (placed 0x4210)).pc = 0x204 := by decide
/-- K3 -/
theorem test_sneVxKk_not : (after ((placed 0x4210).writeV 2 0x10)).pc = 0x202 := by decide
/-- K6 -/
theorem test_seVxVy_same : (after ((placed 0x5110).writeV 1 5)).pc = 0x204 := by decide
/-- K7 -/
theorem test_sneVxVy : (after (((placed 0x9120).writeV 1 7).writeV 2 8)).pc = 0x204 := by decide
/-- S2 -/
theorem test_ldVxKk : let s := after (placed 0x6307); s.readV 3 = 7 ∧ s.pc = 0x202 := by decide
/-- A2 -/
theorem test_addVxKk : let s := after ((placed 0x70FF).writeV 0 5); s.readV 0 = 4 ∧ s.readV 0xF = 0 := by decide
/-- A4 -/
theorem test_addVxKk_flag :
    (after (withCfg ((placed 0x7F01).writeV 0xF 0xFF) fun c => { c with addImmSetsVf := true })).readV 0xF = 1 := by
  decide
/-- A6 -/
theorem test_ldVxVy : (after ((placed 0x8120).writeV 2 9)).readV 1 = 9 := by decide
/-- A7 -/
theorem test_orVxVy : (after (((placed 0x8121).writeV 1 0x0C).writeV 2 0x0A)).readV 1 = 0x0E := by decide
/-- A7 -/
theorem test_andVxVy : (after (((placed 0x8122).writeV 1 0x0C).writeV 2 0x0A)).readV 1 = 0x08 := by decide
/-- A7 -/
theorem test_xorVxVy : (after (((placed 0x8123).writeV 1 0x0C).writeV 2 0x0A)).readV 1 = 0x06 := by decide
/-- A12 -/
theorem test_addVxVy_into_VF : (after (((placed 0x8F14).writeV 0xF 200).writeV 1 100)).readV 0xF = 1 := by decide
/-- A13 -/
theorem test_addVxVy_from_VF :
    let s := after (((placed 0x81F4).writeV 1 1).writeV 0xF 1);
      s.readV 1 = 2 ∧ s.readV 0xF = 0 := by
  decide
/-- S7 -/
theorem test_subVxVy :
    let s := after (((placed 0x8015).writeV 0 10).writeV 1 250);
      s.readV 0 = 16 ∧ s.readV 0xF = 0 := by
  decide
/-- A15 -/
theorem test_subVxVy_equal :
    (after (withCfg (((placed 0x8015).writeV 0 7).writeV 1 7) fun c => { c with subEqFlag := true })).readV 0xF = 1 := by
  decide
/-- A21 -/
theorem test_shrVx :
    let s := after (((placed 0x8016).writeV 0 5).writeV 1 0x77);
      s.readV 0 = 2 ∧ s.readV 0xF = 1 ∧ s.readV 1 = 0x77 := by
  decide
/-- A20 -/
theorem test_shrVx_VF : (after ((placed 0x8F06).writeV 0xF 3)).readV 0xF = 1 := by decide
/-- A22 -/
theorem test_subnVxVy :
    let s := after (((placed 0x8017).writeV 0 10).writeV 1 250);
      s.readV 0 = 240 ∧ s.readV 0xF = 1 := by
  decide
/-- A27 -/
theorem test_shlVx : let s := after ((placed 0x800E).writeV 0 0x81); s.readV 0 = 2 ∧ s.readV 0xF = 1 := by decide
/-- A29 -/
theorem test_gtVxVy : (after ((placed 0x9011).writeV 1 255)).readV 0xF = 0 := by decide
/-- A28 -/
theorem test_gteVxVy : (after (((placed 0x9012).writeV 0 3).writeV 1 3)).readV 0xF = 1 := by decide
/-- A29 -/
theorem test_ltVxVy : (after ((placed 0x9013).writeV 1 255)).readV 0xF = 1 := by decide
/-- A30 -/
theorem test_lteVxVy : (after (((placed 0x9124).writeV 1 9).writeV 2 3)).readV 0xF = 0 := by decide
/-- M1 -/
theorem test_ldi : (after (placed 0xA300)).i = 0x300 := by decide
/-- J10 -/
theorem test_jpV0 : (after ((placed 0xBFFF).writeV 0 0xFF)).pc = 0x10FE := by decide
/-- A32 -/
theorem test_rnd : (after (given (placed 0xC30F) 0xB7 0 none)).readV 3 = 0x07 := by decide
/-- S10 -/
theorem test_drw_wraps :
    let s := after ((poke (placed 0xD011) 0x300 0xFF).writeI 0x300 |>.writeV 0 63);
      s.fbPixel 63 0 = true ∧ s.fbPixel 6 0 = true ∧ s.fbPixel 7 0 = false := by
  decide
/-- G7 -/
theorem test_drw_collides :
    let s := after (lit ((poke (placed 0xD011) 0x300 0xC0).writeI 0x300) 0 0);
      s.fbPixel 0 0 = false ∧ s.fbPixel 1 0 = true ∧ s.readV 0xF = 1 := by
  decide
/-- K9 -/
theorem test_skp : (after (given ((placed 0xE59E).writeV 5 5) 0 0x0020 none)).pc = 0x204 := by decide
/-- K13 -/
theorem test_skp_range : (after ((placed 0xE09E).writeV 0 16)).statusPort = (true, 6, 0x200, 0xE09E, 0) := by decide
/-- K11 -/
theorem test_sknp : (after (given ((placed 0xE5A1).writeV 5 5) 0 0 none)).pc = 0x204 := by decide
/-- K12 -/
theorem test_sknp_held : (after (given ((placed 0xE5A1).writeV 5 5) 0 0x0020 none)).pc = 0x202 := by decide
/-- T1 -/
theorem test_ldVxDt : let s := after { (placed 0xF107) with dt := 5 }; s.dt = 4 ∧ s.readV 1 = 4 := by decide
/-- T5 -/
theorem test_getkey_none :
    let s := after { (given (placed 0xF30A) 0 0 none) with dt := 5 };
      s.pc = 0x200 ∧ s.dt = 4 := by
  decide
/-- T6 -/
theorem test_getkey_event :
    let s := after (given (placed 0xF30A) 0 0 (some 5));
      s.pc = 0x202 ∧ s.readV 3 = 5 := by
  decide
/-- T4 -/
theorem test_ldDtVx : (after { ((placed 0xF015).writeV 0 3) with dt := 9 }).dt = 3 := by decide
/-- T7 -/
theorem test_ldStVx : let s := after ((placed 0xF218).writeV 2 30); s.st = 30 ∧ s.soundOn = true := by decide
/-- M4 -/
theorem test_addi_wraps : (after (((placed 0xF11E).writeI 0xFFFF).writeV 1 1)).i = 0 := by decide
/-- M3 -/
theorem test_addi_keeps_VF :
    let s := after ((((placed 0xF11E).writeI 0xFFF).writeV 1 1).writeV 0xF 9);
      s.i = 0x1000 ∧ s.readV 0xF = 9 := by
  decide
/-- M5 -/
theorem test_ldsprt : (after ((placed 0xF029).writeV 0 15)).i = 0x04B := by decide
/-- M6 -/
theorem test_ldsprt_range : (after ((placed 0xF029).writeV 0 16)).statusPort = (true, 7, 0x200, 0xF029, 0) := by decide
/-- M8 -/
theorem test_ldbcd_top :
    let s := after (((placed 0xF033).writeI 0xFFD).writeV 0 255);
      s.readByte 0xFFD = 2 ∧ s.readByte 0xFFE = 5 ∧ s.readByte 0xFFF = 5 := by
  decide
/-- M9 -/
theorem test_ldbcd_range :
    (after (((placed 0xF033).writeI 0xFFE).writeV 0 255)).statusPort = (true, 4, 0x200, 0xF033, 0x1000) := by
  decide
/-- M11 -/
theorem test_dumpreg_all :
    let s := after (((placed 0xFF55).writeI 0xFF0).writeV 0xF 7);
      s.readByte 0xFFF = 7 ∧ s.i = 0xFF0 := by
  decide
/-- M12 -/
theorem test_dumpreg_range :
    (after ((placed 0xFF55).writeI 0xFF1)).statusPort = (true, 4, 0x200, 0xFF55, 0x1000) := by
  decide
/-- M13 -/
theorem test_ldreg :
    let s := after ((poke (placed 0xF065) 0x300 0xAB).writeI 0x300 |>.writeV 1 0x55);
      s.readV 0 = 0xAB ∧ s.readV 1 = 0x55 := by
  decide
/-- M15 -/
theorem test_ldreg_font :
    let s := after (placed 0xF465);
      s.readV 0 = 0xF0 ∧ s.readV 4 = 0xF0 ∧ s.readV 1 = 0x90 := by
  decide
/-- X1 -/
theorem test_illegal : (after (placed 0x0000)).statusPort = (true, 1, 0x200, 0x0000, 0) := by decide
/-- X8 -/
theorem test_misaligned : (after { State.reset with pc := 0x201 }).statusPort = (true, 5, 0x201, 0, 0) := by decide
/-- X9 -/
theorem test_odd_pc_allowed :
    let s := after (({ (withCfg State.reset fun c => { c with oddPcFaults := false }) with pc := 0x201 }).placeWord 0x6105);
      s.readV 1 = 5 ∧ s.pc = 0x203 := by
  decide
/-- X10 -/
theorem test_fetch_beyond :
    (after { State.reset with pc := 0x1000 }).statusPort = (true, 4, 0x1000, 0, 0x1000) := by
  decide
/-- X11 -/
theorem test_fetch_across_the_top :
    (after { (withCfg State.reset fun c => { c with oddPcFaults := false }) with pc := 0xFFF }).statusPort = (true, 4, 0xFFF, 0, 0x1000) := by
  decide
/-- X12 -/
theorem test_top_of_memory : (after (({ State.reset with pc := 0xFFE }).placeWord 0x1FFE)).pc = 0xFFE := by decide
/-- T9 -/
theorem test_st_counts_down :
    (after { (withCfg (placed 0x6000) fun c => { c with stCountsDown := true }) with st := 30 }).st = 29 := by
  decide
/-- G4 -/
theorem test_drw_no_rows : (after ((placed 0xD010).writeV 0xF 1)).readV 0xF = 0 := by decide

/-! ### Witnesses: a state and operands that meet the hypotheses of each statement that has some, at a boundary where it
has one -/

theorem witness_ResetCopiesFontIntoZeroedMemory :
    (15 : Nat) < 16 ∧ (4 : Nat) < 5 ∧ State.reset.readByte (5 * 15 + 4) = 0x80 ∧ 0x50 ≤ 0xFFF ∧ 0xFFF < 0x1000 ∧
    State.reset.readByte 0xFFF = 0 ∧ State.reset.readByte 0x50 = 0 := by
  decide

theorem witness_LoadedImageStandsAtLoadBase : (List.replicate 0xE00 (0xAA : Byte)).length ≤ 0xE00 := by
  rw [List.length_replicate]

theorem witness_LoadedImageStandsAtLoadBase_too_long : 0xE00 < (List.replicate 0xE01 (0xAA : Byte)).length := by
  rw [List.length_replicate]
  omega

theorem witness_DecodeOfEncodeIsTheInstruction : Instr.wellFormed (.drw 0xF 0 0xF) = true := by decide
theorem witness_EncodeOfDecodeIsTheWord : decodeWord 0x8F16 = .ok (.shrVx 0xF 1) := by decide
theorem witness_DecoderFollowsTheOpcodeTable_row :
    ⟨"drw_Vx__Vy__n", 0xF000, 0xD000⟩ ∈ opcodeTable ∧
    OpcodeRow.matchesWord ⟨"drw_Vx__Vy__n", 0xF000, 0xD000⟩ 0xDFFF = true := by
  decide
theorem witness_DecoderFollowsTheOpcodeTable_none : ∀ r ∈ opcodeTable, r.matchesWord 0x00E1 = false := by decide
theorem witness_StepRunsTheDecodedInstruction :
    let s := placed 0x6307; canFetch s ∧
    decode [s.readByte s.pc.toNat, s.readByte (s.pc.toNat + 1)] = .ok (.ldVxKk 3 7, []) := by
  decide
theorem witness_TimersChangeOnlyByTickAndTimerWrites_dt :
    let s := { (placed 0xF015) with dt := 9 };
    canFetch s ∧ decodeWord (wordAt s) = .ok (.ldDtVx 0) ∧ faultOf (.ldDtVx 0) s = none := by
  decide
theorem witness_TimersChangeOnlyByTickAndTimerWrites_st :
    let s := { (placed 0xF018) with st := 9 };
    canFetch s ∧ decodeWord (wordAt s) = .ok (.ldStVx 0) ∧ faultOf (.ldStVx 0) s = none := by
  decide
theorem witness_TimersChangeOnlyByTickAndTimerWrites_other :
    let s := { (placed 0x00E0) with dt := 0 };
    canFetch s ∧ decodeWord (wordAt s) = .ok .cls ∧ faultOf .cls s = none := by
  decide
theorem witness_HaltedCoreStaysAsItIs :
    bad { State.reset with status := faulted .memRange 0x200 0xF033 0x1000 } := by
  decide
theorem witness_FetchFaultsInPriorityOrder_odd :
    let s := { State.reset with pc := 0xFFF }; s.status.halted = false ∧ ¬canFetch s ∧ s.pc.toNat % 2 = 1 := by
  decide
theorem witness_FetchFaultsInPriorityOrder_range :
    let s := { (withCfg State.reset fun c => { c with oddPcFaults := false }) with pc := 0xFFF };
    s.status.halted = false ∧ ¬canFetch s ∧ s.cfg.oddPcFaults = false := by
  decide
theorem witness_FetchFaultsInPriorityOrder_beyond :
    let s := { State.reset with pc := 0x1000 }; s.status.halted = false ∧ ¬canFetch s ∧ s.pc.toNat % 2 = 0 := by
  decide
theorem witness_IllegalWordHaltsTheCore :
    let s := placed 0x5121; canFetch s ∧ Word.wellFormed (wordAt s) = false := by
  decide
theorem witness_StatusPortShowsTheCauseCode_call : 15 < ({ State.reset with sp := 16 } : State).sp.toNat := by decide
theorem witness_StatusPortShowsTheCauseCode_ret : State.reset.sp.toNat = 0 := by decide
theorem witness_StatusPortShowsTheCauseCode_range : (State.reset.writeI 0xFFE).i.toNat = 0xFFE := by decide
theorem witness_StatusPortShowsTheCauseCode_key : 15 < ((State.reset.writeV 0 16).readV 0).toNat := by decide
theorem witness_StoredWordIsFetchedNext :
    let s := (placed 0xF155).writeI 0x202; canFetch s ∧ decodeWord (wordAt s) = .ok (.dumpreg 1) ∧
    1 ≤ (1 : Reg).toNat ∧ s.i.toNat = s.pc.toNat + 2 ∧ inRange s ((1 : Reg).toNat + 1) := by
  decide
theorem witness_JumpWritesPcAndFaultsOnlyAtTheNextFetch_odd :
    State.reset.status.halted = false ∧ State.reset.cfg.oddPcFaults = true ∧
    (0x201 : Addr).toNat % 2 = 1 := by
  decide
theorem witness_JumpWritesPcAndFaultsOnlyAtTheNextFetch_top :
    let s := withCfg State.reset fun c => { c with oddPcFaults := false };
    s.status.halted = false ∧ s.cfg.oddPcFaults = false ∧ (0xFFF : Addr).toNat = 0xFFF := by
  decide
theorem witness_CallPushesTheReturnAddress :
    ({ State.reset with sp := 15 } : State).sp.toNat ≤ 15 ∧ (14 : Nat) ≠ 15 := by
  decide
theorem witness_ReturnPopsTheReturnAddress :
    let s := { State.reset with sp := 16 }; 1 ≤ s.sp.toNat ∧ s.sp.toNat ≤ 16 := by
  decide
theorem witness_ReturnPopsTheReturnAddress_one :
    let s := { State.reset with sp := 1 }; 1 ≤ s.sp.toNat ∧ s.sp.toNat ≤ 16 := by
  decide
theorem witness_ReturnAfterCallResumesAfterIt :
    let s := { State.reset with sp := 14 }; s.sp.toNat ≤ 15 ∧ 15 ≠ s.sp.toNat ∧ 13 ≠ s.sp.toNat := by
  decide
theorem witness_SkipOnEqualRegisters : (3 : Reg) = 3 := by decide
theorem witness_KeySkipsTestTheKeyOfVx : ((State.reset.writeV 5 15).readV 5).toNat ≤ 15 := by decide
theorem witness_AddImmediateWraps_plain : State.reset.cfg.addImmSetsVf = false := by decide
theorem witness_AddImmediateWraps_flag :
    (withCfg State.reset fun c => { c with addImmSetsVf := true }).cfg.addImmSetsVf = true ∧ (0 : Reg) ≠ regF := by
  decide
theorem witness_AddSetsSumThenCarry : (0xE : Reg) ≠ regF := by decide
theorem witness_SubtractSetsStrictNotBorrow : (0x0 : Reg) ≠ regF := by decide
theorem witness_ReverseSubtractSetsStrictNotBorrow : (0xE : Reg) ≠ regF := by decide
theorem witness_ShiftsMoveVxByOne : (0x0 : Reg) ≠ regF := by decide
theorem witness_FontLookupPointsAtTheGlyph : ((State.reset.writeV 0 15).readV 0).toNat ≤ 15 := by decide
theorem witness_BcdStoresThreeDigits :
    let s := State.reset.writeI 0xFFD; inRange s 3 ∧ (0xFFC < s.indexAddr ∨ s.indexAddr + 3 ≤ 0xFFC) := by
  decide
theorem witness_DumpStoresV0ToVx :
    let s := State.reset.writeI 0xFF0; inRange s ((0xF : Reg).toNat + 1) ∧ (0xF : Reg).toNat ≤ (0xF : Reg).toNat ∧
    (0xFEF < s.indexAddr ∨ s.indexAddr + 15 < 0xFEF) := by
  decide
theorem witness_LoadReadsV0ToVx :
    let s := State.reset.writeI 0xFFF; inRange s ((0 : Reg).toNat + 1) ∧ (0 : Reg).toNat ≤ (0 : Reg).toNat ∧
    (0 : Reg).toNat < (1 : Reg).toNat := by
  decide
theorem witness_DataAccessBeyondMemoryHalts :
    let s := State.reset.writeI 0xFFE; ¬inRange s 3 ∧ ¬inRange s ((2 : Reg).toNat + 1) ∧
    ¬inRange s (3 : Nibble).toNat := by
  decide
theorem witness_DataAccessBeyondMemoryHalts_beyond :
    ¬inRange (State.reset.writeI 0xFFFF) ((0 : Reg).toNat + 1) := by
  decide
theorem witness_DrawTogglesExactlyTheSprite_no_rows :
    inRange (State.reset.writeI 0xFFFF) (0 : Nibble).toNat := by
  decide
theorem witness_DrawingTwiceRestoresThePixels :
    (0 : Reg) ≠ regF ∧ (1 : Reg) ≠ regF ∧ inRange (State.reset.writeI 0xFF1) (15 : Nibble).toNat := by
  decide

/-- R914 (b): a jump to itself, at the reset PC and at the last even address. -/
theorem witness_RunEndsAtFirstEndAndIdleChangesOnlyTimers : idle (placed 0x1200) ∧ canFetch (placed 0x1200) :=
  ⟨⟨by decide, by decide, 0x200, by decide, by decide⟩, by decide⟩

theorem witness_RunEndsAtFirstEndAndIdleChangesOnlyTimers_top :
    let s := ({ State.reset with pc := 0xFFE }).placeWord 0x1FFE; idle s ∧ canFetch s :=
  ⟨⟨by decide, by decide, 0xFFE, by decide, by decide⟩, by decide⟩

/-- R914 (b): the jump to itself at an odd PC ends the run idle, though a fetch there would fault. -/
theorem test_run_end_odd :
    let s := ({ State.reset with pc := 0x201 }).placeWord 0x1201;
    endWithin 0 s = some (.idle, s) ∧ ¬canFetch s := ⟨rfl, by decide⟩

/-- R914 (b): the end state is the one before the self-jump executes; a jump elsewhere is no end. -/
theorem test_run_end_idle :
    (endWithin 0 (placed 0x1200)).map (·.1) = some .idle ∧ (endWithin 0 (placed 0x1202)).map (·.1) = none := by decide

/-- R914 (a): the first step that halts ends the run. -/
theorem test_run_end_bad :
    (endWithin 0 (placed 0x0000)).map (·.1) = none ∧ (endWithin 1 (placed 0x0000)).map (·.1) = some .bad := by decide

/-- Two spinning steps, then key 10 (program P8). -/
theorem witness_KeyWaitSpinsUntilTheEvent :
    let none' : Inputs := { rand8 := 0, keys := 0, keyEvent := none }
    let key : Inputs := { rand8 := 0, keys := 0, keyEvent := some 10 }
    let s := { (placed 0xF00A) with supplied := [none', none'] ++ key :: [] }
    canFetch s ∧ decodeWord (wordAt s) = .ok (.getkey 0) ∧ s.supplied = [none', none'] ++ key :: [] ∧
      (∀ e ∈ [none', none'], e.keyEvent = none) ∧ key.keyEvent = some 10 := by
  decide

/-- Both sides of the statement on possible random results. -/
theorem witness_RandomResultsAreTheMaskedBytes :
    (ran (.rnd 3 0x0F) (given State.reset 0xB7 0 none)).readV 3 = 0x07 := by decide

/-- A dump into the font region, and a state that keeps its I and memory with other registers. -/
theorem witness_LoadAfterDumpRestoresRegisters :
    let t := ran (.dumpreg 0xF) State.reset
    inRange State.reset ((0xF : Reg).toNat + 1) ∧ (t.writeV 3 9).i = t.i ∧ (t.writeV 3 9).mem = t.mem := by
  decide

/-- The sprite at the reset I is the font's glyph 0: its first row F0 covers (0, 0) and not (4, 0). -/
theorem witness_DrawTogglesExactlyTheSprite_covers : spriteCovers State.reset 0 0 5 0 0 :=
  ⟨0, 0, by decide, by decide, by decide, by decide, by decide⟩

theorem witness_DrawTogglesExactlyTheSprite_not_covered : ¬spriteCovers State.reset 0 0 1 4 0 := by
  rintro ⟨row, col, hr, hc, hb, hx, _⟩
  obtain rfl : row = 0 := by omega
  have : col = 4 := by
    have h : (4 : Nat) = (0 + col) % 64 := hx
    omega
  subst this
  exact absurd hb (by decide)

theorem witness_DrawTogglesExactlyTheSprite_collision :
    pixel (lit State.reset 0 0).fb 0 0 = true ∧ inRange (lit State.reset 0 0) (5 : Nibble).toNat := by decide

theorem witness_DrawTogglesExactlyTheSprite_no_collision : ∀ px py, pixel State.reset.fb px py = false := by
  intro px py
  exact show (Vector.replicate 64 (Vector.replicate 32 false))[px][py] = false by simp

/-- A step that does not fault, for the statements on who writes what. -/
theorem witness_OnlyListedRegistersAreWritten :
    faultOf (.addVxVy 0 1) State.reset = none ∧ exec (.addVxVy 0 1) State.reset = .next (ran (.addVxVy 0 1) State.reset) ∧
      (2 : Reg) ∉ writesV (.addVxVy 0 1) State.reset.cfg := ⟨by decide, rfl, by decide⟩

theorem witness_OnlyBcdAndDumpWriteMemory :
    faultOf (.ldreg 3) State.reset = none ∧ exec (.ldreg 3) State.reset = .next (ran (.ldreg 3) State.reset) ∧
      writesMem (.ldreg 3) = false := ⟨by decide, rfl, by decide⟩

theorem witness_OnlyIndexInstructionsWriteI :
    faultOf (.dumpreg 3) State.reset = none ∧ exec (.dumpreg 3) State.reset = .next (ran (.dumpreg 3) State.reset) ∧
      writesI (.dumpreg 3) = false := ⟨by decide, rfl, by decide⟩

theorem witness_OnlyCallAndReturnTouchTheStack :
    faultOf (.jp 0x300) State.reset = none ∧ exec (.jp 0x300) State.reset = .next (ran (.jp 0x300) State.reset) ∧
      usesStack (.jp 0x300) = false := ⟨by decide, rfl, by decide⟩

theorem witness_OnlyClearAndDrawWritePixels :
    faultOf .ret (ran (.call 0x300) State.reset) = none ∧
      exec .ret (ran (.call 0x300) State.reset) = .next (ran .ret (ran (.call 0x300) State.reset)) ∧
      writesFb .ret = false := ⟨by decide, rfl, by decide⟩

theorem witness_StepKeepsTheParameters :
    step (placed 0x00E0) = .next (after (placed 0x00E0)) ∧ (placed 0x00E0).status.halted = false := ⟨rfl, by decide⟩

theorem witness_EveryStepKeepsTheInvariant : Inv (placed 0x2300) ∧ step (placed 0x2300) = .next (after (placed 0x2300)) :=
  ⟨⟨by decide, by simp [statusWf]; decide, fun _ => ⟨by decide, by decide, fun j h => absurd h (by
    rw [show (placed 0x2300).sp.toNat = 0 by decide]
    omega)⟩⟩, rfl⟩

end Sys2Proof.Tests
end

/-! PROOFS. What a step can do, and the model's own fields along it (log 3, log 4). -/

namespace Sys2Proof.Machine

/-! ### What a step can do, said once (R330, R332) -/

/-- A fetched word that decodes is executed, every other one raises ILLEGAL_OPCODE (R306). -/
theorem dispatchWord_cases {w : Word} {s t : State} (h : dispatchWord w s = .next t) :
    (∃ e, decodeWord w = .error e ∧ t = raiseFault .illegalOpcode w 0 s) ∨
      ∃ i, decodeWord w = .ok i ∧ exec i s = .next t := by
  unfold dispatchWord at h
  split at h
  · next e he =>
    cases h
    exact .inl ⟨e, he, rfl⟩
  · next i hi => exact .inr ⟨i, hi, h⟩

theorem thenEndStep_eq_next {o : Host.Outcome State Fault Refusal} {t : State} (h : thenEndStep o = .next t) :
    ∃ u, o = .next u ∧ t = endStep u := by
  cases o with
  | next u =>
    cases h
    exact ⟨u, rfl, rfl⟩
  | fault r => cases h
  | refused r => cases h

/-- A step of a halted core changes nothing; of a running core its fetch faults, or it dispatches the fetched word after
the tick. -/
theorem step_cases {s t : State} (h : step s = .next t) :
    (s.status.halted = true ∧ t = s) ∨
      (s.status.halted = false ∧ ∃ c a, fetch s = .error (c, a) ∧ t = endStep (raiseFault c 0 a s)) ∨
      (s.status.halted = false ∧
        ∃ w u, fetch s = .ok w ∧ dispatchWord w (timerTick s) = .next u ∧ t = endStep u) := by
  cases hs : s.status.halted with
  | true =>
    rw [step_halted hs] at h
    cases h
    exact .inl ⟨rfl, rfl⟩
  | false =>
    cases hf : fetch s with
    | error f =>
      rw [step_fetch_error hs hf] at h
      cases h
      exact .inr (.inl ⟨rfl, f.1, f.2, rfl, rfl⟩)
    | ok w =>
      rw [step_fetch_ok hs hf] at h
      obtain ⟨u, hu, rfl⟩ := thenEndStep_eq_next h
      exact .inr (.inr ⟨rfl, w, u, rfl, hu, rfl⟩)

/-! ### The model's own fields (log 3, log 4) -/

/-- The fields of `State` that are no state of the core are in `t` as in `s`. -/
structure SameModelFields (s t : State) : Prop where
  cfg : t.cfg = s.cfg
  supplied : t.supplied = s.supplied
  drawn : t.drawn = s.drawn

theorem SameModelFields.trans {s t u : State} (h : SameModelFields s t) (k : SameModelFields t u) :
    SameModelFields s u :=
  ⟨k.cfg.trans h.cfg, k.supplied.trans h.supplied, k.drawn.trans h.drawn⟩

theorem SameModelFields.ite {s a b : State} {p : Prop} [Decidable p] (ha : SameModelFields s a)
    (hb : SameModelFields s b) : SameModelFields s (if p then a else b) := by
  split
  · exact ha
  · exact hb

theorem raiseFault_sameModelFields (c : Cause) (w : Word) (a : Nat) (s : State) :
    SameModelFields s (raiseFault c w a s) := ⟨rfl, rfl, rfl⟩

theorem timerTick_sameModelFields (s : State) : SameModelFields s (timerTick s) := ⟨rfl, rfl, rfl⟩

/-- A write of bytes that succeeds, wherever they lie. -/
theorem memWrites_sameModelFields (bs : List Byte) {s t : State} {a : Nat} (h : memWrites s a bs = .ok t) :
    SameModelFields s t := by
  induction bs generalizing s a with
  | nil =>
    cases h
    exact ⟨rfl, rfl, rfl⟩
  | cons b bs ih =>
    rw [memWrites, memWrite] at h
    by_cases ha : a < Config.memSize
    · rw [if_pos ha] at h
      exact .trans (t := s.setMem (Memory.write s.cfg.font s.mem a b)) ⟨rfl, rfl, rfl⟩ (ih h)
    · rw [if_neg ha] at h
      cases h

theorem storeAtI_sameModelFields (i : Instr) (bs : List Byte) (s : State) : SameModelFields s (storeAtI i bs s) := by
  unfold storeAtI
  split
  · exact raiseFault_sameModelFields ..
  · next t ht => exact (memWrites_sameModelFields bs ht).trans ⟨rfl, rfl, rfl⟩

/-- Every instruction answers a next state, and none touches the model's own fields. -/
theorem exec_next_sameModelFields (i : Instr) (s : State) : ∃ t, exec i s = .next t ∧ SameModelFields s t := by
  cases i with
  | ret | call | skp | sknp | ldsprt =>
    exact ⟨_, rfl, .ite (raiseFault_sameModelFields ..) ⟨rfl, rfl, rfl⟩⟩
  | addVxKk => exact ⟨_, rfl, .ite ⟨rfl, rfl, rfl⟩ ⟨rfl, rfl, rfl⟩⟩
  | ldbcd | dumpreg => exact ⟨_, rfl, storeAtI_sameModelFields ..⟩
  | drw | ldreg =>
    refine ⟨_, rfl, ?_⟩
    split
    · exact raiseFault_sameModelFields ..
    · exact ⟨rfl, rfl, rfl⟩
  | getkey =>
    refine ⟨_, rfl, ?_⟩
    split <;> exact ⟨rfl, rfl, rfl⟩
  | _ => exact ⟨_, rfl, rfl, rfl, rfl⟩

theorem dispatchWord_sameModelFields {w : Word} {s t : State} (h : dispatchWord w s = .next t) :
    SameModelFields s t := by
  obtain ⟨_, _, rfl⟩ | ⟨i, _, hi⟩ := dispatchWord_cases h
  · exact raiseFault_sameModelFields ..
  · obtain ⟨u, hu, hsame⟩ := exec_next_sameModelFields i s
    rw [hu] at hi
    cases hi
    exact hsame

end Sys2Proof.Machine

namespace Sys2Proof.Proofs

open Sys2Proof.Machine

/-- Settles O58: a halted core's step changes nothing, and a running core's step ends with `endStep`, before which
nothing touches the model's own fields. -/
theorem stepKeepsTheParameters : Obligations.StepKeepsTheParameters := by
  intro s t h
  obtain ⟨hhalted, rfl⟩ | ⟨-, c, a, -, rfl⟩ | ⟨-, w, u, -, hu, rfl⟩ := step_cases h
  · exact ⟨rfl, fun hrunning => absurd hhalted (by simp [hrunning])⟩
  · exact ⟨rfl, fun _ => ⟨rfl, rfl⟩⟩
  · have hsame : SameModelFields s u := (timerTick_sameModelFields s).trans (dispatchWord_sameModelFields hu)
    exact ⟨hsame.cfg, fun _ => ⟨congrArg List.tail hsame.supplied, congrArg (· + 1) hsame.drawn⟩⟩

end Sys2Proof.Proofs

/-! PROOFS. What an instruction does when it faults and when it does not (R800, R801), said once: `faultOf` is the
test that `exec` makes. -/

namespace Sys2Proof.Machine

open Sys2Proof.Safety

/-! ### The faults of a data access (R804) -/

theorem rangeFault_eq_none {s : State} {n : Nat} : rangeFault s n = none ↔ inRange s n := by
  simp [rangeFault, inRange, or_iff_not_imp_left]

theorem rangeFault_eq_some {s : State} {n a : Nat} {c : Cause} (h : rangeFault s n = some (c, a)) :
    n ≠ 0 ∧ 0x1000 < s.i.toNat + n ∧ c = .memRange ∧ a = max s.i.toNat 0x1000 := by
  obtain ⟨hr, he⟩ := Option.ite_none_left_eq_some.1 h
  cases he
  exact ⟨by omega, by omega, rfl, rfl⟩

/-! ### An instruction that faults -/

theorem storeAtI_of_rangeFault {i : Instr} {s : State} {bs : List Byte} {c : Cause} {a : Nat}
    (h : rangeFault s bs.length = some (c, a)) : storeAtI i bs s = raiseFault c (encode i) a s := by
  obtain ⟨hn, hr, rfl, rfl⟩ := rangeFault_eq_some h
  exact storeAtI_error i s bs (List.ne_nil_of_length_pos (Nat.pos_of_ne_zero hn)) hr

theorem memReads_of_rangeFault {s : State} {n : Nat} {c : Cause} {a : Nat} (h : rangeFault s n = some (c, a)) :
    memReads s s.indexAddr n = .error a ∧ c = .memRange := by
  obtain ⟨hn, hr, rfl, rfl⟩ := rangeFault_eq_some h
  exact ⟨memReads_error s n _ hn hr, rfl⟩

/-- The fault the table of R801 gives an instruction is the fault it raises. -/
theorem exec_of_faultOf_some {i : Instr} {s : State} {c : Cause} {a : Nat} (h : faultOf i s = some (c, a)) :
    exec i s = .next (raiseFault c (encode i) a s) := by
  cases i with
  | call | skp | sknp | ldsprt =>
    obtain ⟨hp, he⟩ := Option.ite_none_right_eq_some.1 h
    cases he
    exact congrArg _ (if_pos hp)
  | ret =>
    obtain ⟨hsp, he⟩ := Option.ite_none_right_eq_some.1 h
    cases he
    exact congrArg _ (if_pos (BitVec.eq_of_toNat_eq hsp))
  | ldbcd x => exact congrArg _ (storeAtI_of_rangeFault (bs := bcdDigits (s.readV x)) h)
  | dumpreg x => exact congrArg _ (storeAtI_of_rangeFault (by rwa [State.length_regsTo]))
  | drw | ldreg =>
    obtain ⟨hm, rfl⟩ := memReads_of_rangeFault h
    simp only [exec, execDrw, execLdreg, hm, raiseRange]
  | _ => cases h

/-! ### The instructions that can fault, where they do not -/

theorem not_of_ite_some_eq_none {α : Type} {p : Prop} [Decidable p] {x : α}
    (h : (if p then some x else none) = none) : ¬p :=
  fun hp => Option.some_ne_none x (ite_eq_right_iff.1 h hp)

theorem exec_ret_of_noFault {s : State} (h : faultOf .ret s = none) :
    exec .ret s = .next (s.dropTop.jump (s.dropTop.stackSlot s.dropTop.sp.toNat)) := by
  have hsp : s.sp ≠ 0 := fun h0 => not_of_ite_some_eq_none h (congrArg BitVec.toNat h0)
  exact congrArg _ (if_neg hsp)

theorem exec_call_of_noFault {nnn : Addr} {s : State} (h : faultOf (.call nnn) s = none) :
    exec (.call nnn) s = .next ((s.push (s.pc + 2)).jump (zextAddr nnn)) :=
  congrArg _ (if_neg (not_of_ite_some_eq_none h))

theorem exec_skp_of_noFault {x : Reg} {s : State} (h : faultOf (.skp x) s = none) :
    exec (.skp x) s = .next (s.skipIf (s.keyDown (s.readV x).toNat)) :=
  congrArg _ (if_neg (not_of_ite_some_eq_none h))

theorem exec_sknp_of_noFault {x : Reg} {s : State} (h : faultOf (.sknp x) s = none) :
    exec (.sknp x) s = .next (s.skipIf (!s.keyDown (s.readV x).toNat)) :=
  congrArg _ (if_neg (not_of_ite_some_eq_none h))

theorem exec_ldsprt_of_noFault {x : Reg} {s : State} (h : faultOf (.ldsprt x) s = none) :
    exec (.ldsprt x) s = .next (s.writeI (glyphAddr (s.readV x))).advance :=
  congrArg _ (if_neg (not_of_ite_some_eq_none h))

/-- The n bytes from I on (R212). -/
def bytesAtI (s : State) (n : Nat) : List Byte := (List.range n).map fun k => s.readByte (s.indexAddr + k)

@[simp] theorem length_bytesAtI (s : State) (n : Nat) : (bytesAtI s n).length = n := by simp [bytesAtI]

theorem exec_drw_of_noFault {x y : Reg} {n : Nibble} {s : State} (h : faultOf (.drw x y n) s = none) :
    exec (.drw x y n) s =
      .next (s.writeCanvas (drawRows (s.readV x) (s.readV y) 0 (bytesAtI s n.toNat) (s.fb, false))).advance := by
  simp only [exec, execDrw, memReads_ok s n.toNat s.indexAddr (rangeFault_eq_none.1 h), bytesAtI]

theorem exec_ldreg_of_noFault {x : Reg} {s : State} (h : faultOf (.ldreg x) s = none) :
    exec (.ldreg x) s = .next (s.writeRegs (bytesAtI s (x.toNat + 1))).advance := by
  simp only [exec, execLdreg, memReads_ok s (x.toNat + 1) s.indexAddr (rangeFault_eq_none.1 h), bytesAtI]

/-- A store in range changes PC and memory, and keeps memory canonical. -/
theorem storeAtI_of_inRange (i : Instr) {s : State} {bs : List Byte} (h : inRange s bs.length) :
    ∃ m, storeAtI i bs s = (s.setMem m).advance ∧ (Memory.wf s.cfg.font s.mem → Memory.wf s.cfg.font m) := by
  obtain ⟨m, hm, hwf, -⟩ := storeAtI_ok i s bs (h.imp_left List.length_eq_zero_iff.1)
  exact ⟨m, hm, hwf⟩

/-- Fx33 and Fx55 that do not fault change PC and memory, and keep memory canonical. -/
theorem exec_store_of_noFault {i : Instr} {s : State} (hi : writesMem i = true) (h : faultOf i s = none) :
    ∃ m, exec i s = .next (s.setMem m).advance ∧ (Memory.wf s.cfg.font s.mem → Memory.wf s.cfg.font m) := by
  cases i with
  | ldbcd x =>
    obtain ⟨m, hm, hwf⟩ := storeAtI_of_inRange (.ldbcd x) (bs := bcdDigits (s.readV x)) (rangeFault_eq_none.1 h)
    exact ⟨m, congrArg _ hm, hwf⟩
  | dumpreg x =>
    have hr : inRange s (s.regsTo x).length := by
      rw [State.length_regsTo]
      exact rangeFault_eq_none.1 h
    obtain ⟨m, hm, hwf⟩ := storeAtI_of_inRange (.dumpreg x) hr
    exact ⟨m, congrArg _ hm, hwf⟩
  | _ => cases hi

end Sys2Proof.Machine

/-! PROOFS. The invariant: which updates keep it, and that faults and instructions do. -/

namespace Sys2Proof.Machine

open Sys2Proof.Safety

/-! ### Faults -/

/-- What a fault records keeps STATUS consistent: a cause, with an address beyond memory for MEM_RANGE and 0 for every
other cause (R800, R801). -/
def recordable (c : Cause) (a : Nat) : Prop :=
  c ≠ .none ∧ if c = .memRange then 0x1000 ≤ a ∧ a < 2 ^ 16 else a = 0

theorem recordable_memRange (w : Word) : recordable .memRange (max w.toNat 0x1000) := by
  refine ⟨by decide, ?_⟩
  rw [if_pos rfl]
  omega

/-- After a recordable fault the invariant holds: memory is built canonical, and of a halted core no more is asked. -/
theorem inv_raiseFault {c : Cause} {a : Nat} (h : recordable c a) (w : Word) (s : State) :
    Inv (raiseFault c w a s) := by
  obtain ⟨hc, ha⟩ := h
  refine ⟨Memory.ofBytes_wf _ _, ?_, fun hr => absurd hr (by simp)⟩
  rw [statusWf, raiseFault_status, if_pos rfl]
  refine ⟨hc, ?_⟩
  by_cases hm : c = .memRange
  · rw [if_pos hm] at ha ⊢
    rw [BitVec.toNat_ofNat, Nat.mod_eq_of_lt ha.2]
    exact ha.1
  · rw [if_neg hm] at ha
    rw [if_neg hm, ha]
    rfl

theorem recordable_zero {c : Cause} (hc : c ≠ .none) (hm : c ≠ .memRange) : recordable c 0 :=
  ⟨hc, by rw [if_neg hm]⟩

theorem fetch_error_recordable {s : State} {c : Cause} {a : Nat} (h : fetch s = .error (c, a)) : recordable c a := by
  obtain ⟨hf, -⟩ | ⟨hf, -⟩ | ⟨hf, -⟩ := fetch_cases s <;> rw [hf] at h <;> cases h
  · exact recordable_zero (by decide) (by decide)
  · exact recordable_memRange _

theorem faultOf_recordable {i : Instr} {s : State} {c : Cause} {a : Nat} (h : faultOf i s = some (c, a)) :
    recordable c a := by
  cases i with
  | call | ret | skp | sknp | ldsprt =>
    cases (Option.ite_none_right_eq_some.1 h).2
    exact recordable_zero (by decide) (by decide)
  | ldbcd | dumpreg | ldreg | drw =>
    obtain ⟨-, -, rfl, rfl⟩ := rangeFault_eq_some h
    exact recordable_memRange _
  | _ => cases h

/-! ### Updates of a core that goes on

The invariant does not speak of V, I, the timers, FB or the model's own inputs, so an update of those alone keeps it by
definition: such an update has no lemma here, but for the load of registers, whose `Vector.ofFn` is too much to unfold. -/

/-- Of PC the invariant asks a bound (R111). -/
theorem inv_jump {s : State} {p : Word} (h : Inv s) (hp : p.toNat ≤ 0x10FE) : Inv (s.jump p) := by
  obtain ⟨hmem, hstatus, hrun⟩ := h
  exact ⟨hmem, hstatus, fun hr => ⟨(hrun hr).1, hp, (hrun hr).2.2⟩⟩

theorem inv_advance {s : State} (h : Inv s) (hpc : s.pc.toNat ≤ 0xFFE) : Inv s.advance :=
  inv_jump h (by rw [BitVec.toNat_add]; simp; omega)

theorem inv_skipIf {s : State} (c : Bool) (h : Inv s) (hpc : s.pc.toNat ≤ 0xFFE) : Inv (s.skipIf c) := by
  refine inv_jump h ?_
  cases c <;> simp <;> omega

theorem inv_writeRegs {s : State} (bs : List Byte) (h : Inv s) : Inv (s.writeRegs bs) := by
  simpa [Safety.Inv, runningWf, State.stackSlot] using h

theorem inv_setMem {s : State} {m : Memory} (h : Inv s) (hm : Memory.wf s.cfg.font s.mem → Memory.wf s.cfg.font m) :
    Inv (s.setMem m) := by
  obtain ⟨hmem, hrest⟩ := h
  exact ⟨hm hmem, hrest⟩

/-- A push of an address after a 2nnn (R121) onto a stack that is not full. -/
theorem inv_push {s : State} {r : Word} (h : Inv s) (hr : r.toNat ≤ 0x1000) (hsp : s.sp.toNat ≤ 15) :
    Inv (s.push r) := by
  obtain ⟨hmem, hstatus, hrun⟩ := h
  refine ⟨hmem, hstatus, fun hh => ?_⟩
  obtain ⟨-, hpc, hslots⟩ := hrun hh
  have hsp' : (s.push r).sp.toNat = s.sp.toNat + 1 := by
    rw [State.push_sp, BitVec.toNat_add]
    simp
    omega
  refine ⟨by omega, hpc, fun j hj => ?_⟩
  rw [State.stackSlot_push s r j (by omega)]
  split
  · exact hr
  · exact hslots j (by omega)

theorem toNat_dropTop_sp {s : State} (h : s.sp.toNat ≠ 0) : s.dropTop.sp.toNat = s.sp.toNat - 1 := by
  rw [State.dropTop_sp, BitVec.toNat_sub]
  simp
  omega

/-- A pop leaves fewer occupied slots. -/
theorem inv_dropTop {s : State} (h : Inv s) (hsp : s.sp.toNat ≠ 0) : Inv s.dropTop := by
  obtain ⟨hmem, hstatus, hrun⟩ := h
  refine ⟨hmem, hstatus, fun hh => ?_⟩
  obtain ⟨hle, hpc, hslots⟩ := hrun hh
  have hsp' := toNat_dropTop_sp hsp
  exact ⟨by omega, hpc, fun j hj => hslots j (by omega)⟩

/-! ### Instructions (R330) -/

theorem toNat_zextAddr (nnn : Addr) : (zextAddr nnn).toNat = nnn.toNat :=
  BitVec.toNat_setWidth_of_le (by decide)

theorem toNat_zextByte (b : Byte) : (zextByte b).toNat = b.toNat :=
  BitVec.toNat_setWidth_of_le (by decide)

theorem inv_jump_nnn {s : State} (nnn : Addr) (h : Inv s) : Inv (s.jump (zextAddr nnn)) :=
  inv_jump h (by rw [toNat_zextAddr]; omega)

/-- The greatest target of a jump: 0xFF + 0xFFF (R404). -/
theorem toNat_jpV0_target_le (b : Byte) (nnn : Addr) : (zextByte b + zextAddr nnn).toNat ≤ 0x10FE := by
  rw [BitVec.toNat_add, toNat_zextByte, toNat_zextAddr]
  omega

/-- An instruction fetched at a PC of the array, which does not fault, keeps the invariant of a running core. -/
theorem exec_keeps_inv_of_noFault {i : Instr} {s : State} (h : Inv s) (hrun : s.status.halted = false)
    (hpc : s.pc.toNat ≤ 0xFFE) (hf : faultOf i s = none) : ∃ t, exec i s = .next t ∧ Inv t := by
  obtain ⟨hsp, -, hslots⟩ := h.2.2 hrun
  cases i with
  | jp nnn => exact ⟨_, rfl, inv_jump_nnn nnn h⟩
  | jpV0 nnn => exact ⟨_, rfl, inv_jump h (toNat_jpV0_target_le _ nnn)⟩
  | call nnn =>
    have hfree : s.sp.toNat ≤ 15 := not_lt.1 (not_of_ite_some_eq_none hf)
    have hret : (s.pc + 2).toNat ≤ 0x1000 := by
      rw [BitVec.toNat_add]
      simp
      omega
    exact ⟨_, exec_call_of_noFault hf, inv_jump_nnn nnn (inv_push h hret hfree)⟩
  | ret =>
    have hsome : s.sp.toNat ≠ 0 := not_of_ite_some_eq_none hf
    have htop : (s.stackSlot s.dropTop.sp.toNat).toNat ≤ 0x1000 :=
      hslots _ (by rw [toNat_dropTop_sp hsome]; omega)
    exact ⟨_, exec_ret_of_noFault hf, inv_jump (inv_dropTop h hsome) (htop.trans (by decide))⟩
  | seVxKk | sneVxKk | seVxVy | sneVxVy => exact ⟨_, rfl, inv_skipIf _ h hpc⟩
  | skp => exact ⟨_, exec_skp_of_noFault hf, inv_skipIf _ h hpc⟩
  | sknp => exact ⟨_, exec_sknp_of_noFault hf, inv_skipIf _ h hpc⟩
  | ldbcd | dumpreg =>
    obtain ⟨m, hm, hwf⟩ := exec_store_of_noFault rfl hf
    exact ⟨_, hm, inv_advance (inv_setMem h hwf) hpc⟩
  | ldsprt => exact ⟨_, exec_ldsprt_of_noFault hf, inv_advance h hpc⟩
  | drw => exact ⟨_, exec_drw_of_noFault hf, inv_advance h hpc⟩
  | ldreg => exact ⟨_, exec_ldreg_of_noFault hf, inv_advance (inv_writeRegs _ h) (by rwa [State.writeRegs_pc])⟩
  | addVxKk =>
    refine ⟨_, rfl, ?_⟩
    split <;> exact inv_advance h hpc
  | getkey =>
    refine ⟨_, rfl, ?_⟩
    split
    · exact h
    · exact inv_advance h hpc
  | _ => exact ⟨_, rfl, inv_advance h hpc⟩

theorem exec_keeps_inv {i : Instr} {s t : State} (h : Inv s) (hrun : s.status.halted = false)
    (hpc : s.pc.toNat ≤ 0xFFE) (ht : exec i s = .next t) : Inv t := by
  cases hf : faultOf i s with
  | none =>
    obtain ⟨u, hu, hinv⟩ := exec_keeps_inv_of_noFault h hrun hpc hf
    cases hu.symm.trans ht
    exact hinv
  | some f =>
    cases (exec_of_faultOf_some hf).symm.trans ht
    exact inv_raiseFault (faultOf_recordable hf) _ _

theorem dispatchWord_keeps_inv {w : Word} {s t : State} (h : Inv s) (hrun : s.status.halted = false)
    (hpc : s.pc.toNat ≤ 0xFFE) (ht : dispatchWord w s = .next t) : Inv t := by
  obtain ⟨_, _, rfl⟩ | ⟨i, _, hi⟩ := dispatchWord_cases ht
  · exact inv_raiseFault (recordable_zero (by decide) (by decide)) w s
  · exact exec_keeps_inv h hrun hpc hi

/-- A fetched word lies in the array (R210). -/
theorem pc_le_of_fetch_ok {s : State} {w : Word} (h : fetch s = .ok w) : s.pc.toNat ≤ 0xFFE := by
  obtain ⟨-, hpc, -⟩ | ⟨hf, -⟩ | ⟨hf, -⟩ := fetch_cases s
  · omega
  · cases hf.symm.trans h
  · cases hf.symm.trans h

/-! ### Reset (R160) -/

/-- The reset state of any configuration meets the invariant: no cell listed, nothing recorded, PC 0x200, no slot
occupied. -/
theorem inv_resetWith (cfg : Config.Params) : Inv (State.resetWith cfg) :=
  ⟨State.resetWith_wf cfg, rfl, fun _ =>
    ⟨Nat.zero_le 16, show (0x200 : Word).toNat ≤ 0x10FE by decide, fun _ hj => absurd hj (Nat.not_lt_zero _)⟩⟩

theorem atReset_resetWith (cfg : Config.Params) : atReset (State.resetWith cfg) := by
  refine ⟨fun r => ?_, rfl, rfl, rfl, fun j hj => ?_, rfl, rfl, fun px py => pixel_clearFb px py, rfl⟩
  · simp [State.readV, State.resetWith]
  · simp [State.stackSlot, State.resetWith, hj]

end Sys2Proof.Machine

namespace Sys2Proof.Proofs

open Sys2Proof.Machine

/-- Settles O60: a halted core stays as it is, a fault leaves a consistent STATUS and canonical memory, and an instruction
fetched from the array keeps PC, SP and the stack in range. Neither the tick nor the end of a step touches what the
invariant speaks of. -/
theorem everyStepKeepsTheInvariant : Obligations.EveryStepKeepsTheInvariant := by
  intro s t hinv h
  obtain ⟨-, rfl⟩ | ⟨-, c, a, hf, rfl⟩ | ⟨hrun, w, u, hf, hu, rfl⟩ := step_cases h
  · exact hinv
  · exact inv_raiseFault (fetch_error_recordable hf) 0 s
  · exact dispatchWord_keeps_inv (s := timerTick s) (t := u) hinv hrun (pc_le_of_fetch_ok hf) hu

/-- Settles O59. -/
theorem resetMeetsTheInvariant : Obligations.ResetMeetsTheInvariant :=
  ⟨inv_resetWith _, inv_resetWith⟩

/-- Settles O6: the reset port gives the reset state of the state's own parameters, up to the inputs lined up. -/
theorem resetLeavesTheListedValues : Obligations.ResetLeavesTheListedValues :=
  ⟨atReset_resetWith, fun s => atReset_resetWith s.cfg, atReset_resetWith _, rfl⟩

end Sys2Proof.Proofs

/-! PROOFS. Who writes what: the frame of every update, and from them the frame of every instruction that does not fault
(R102, R122, R130, R203, R606). -/

namespace Sys2Proof.Safety

open Sys2Proof.Machine

/-! ### Frames of several updates -/

theorem Frame.mono {c d : List Part} {s t : State} (h : Frame c s t) (hcd : c ⊆ d) : Frame d s t where
  v r hr := h.v r (mt (@hcd _) hr)
  pc hp := h.pc (mt (@hcd _) hp)
  i hp := h.i (mt (@hcd _) hp)
  dt hp := h.dt (mt (@hcd _) hp)
  st hp := h.st (mt (@hcd _) hp)
  sp hp := h.sp (mt (@hcd _) hp)
  stack hp := h.stack (mt (@hcd _) hp)
  fb hp := h.fb (mt (@hcd _) hp)
  mem hp := h.mem (mt (@hcd _) hp)
  status := h.status
  cfg := h.cfg
  supplied := h.supplied
  drawn := h.drawn

theorem Frame.trans {c : List Part} {s t u : State} (h : Frame c s t) (k : Frame c t u) : Frame c s u where
  v r hr := (k.v r hr).trans (h.v r hr)
  pc hp := (k.pc hp).trans (h.pc hp)
  i hp := (k.i hp).trans (h.i hp)
  dt hp := (k.dt hp).trans (h.dt hp)
  st hp := (k.st hp).trans (h.st hp)
  sp hp := (k.sp hp).trans (h.sp hp)
  stack hp := (k.stack hp).trans (h.stack hp)
  fb hp px py := (k.fb hp px py).trans (h.fb hp px py)
  mem hp a := (k.mem hp a).trans (h.mem hp a)
  status := k.status.trans h.status
  cfg := k.cfg.trans h.cfg
  supplied := k.supplied.trans h.supplied
  drawn := k.drawn.trans h.drawn

/-- Two updates change what either of them may change. -/
theorem Frame.andThen {c d : List Part} {s t u : State} (h : Frame c s t) (k : Frame d t u) : Frame (d ++ c) s u :=
  (h.mono (List.subset_append_right d c)).trans (k.mono (List.subset_append_left d c))

theorem Frame.refl (c : List Part) (s : State) : Frame c s s := by
  constructor <;> intros <;> rfl

/-! ### One frame per update -/

theorem frame_writeV (s : State) (x : Reg) (b : Byte) : Frame [.v x] s (s.writeV x b) := by
  constructor
  case v => exact fun r hr => s.readV_writeV_ne b (by simpa using hr)
  all_goals simp

theorem frame_writeFlag (s : State) (f : Byte) : Frame [.v regF] s (s.writeFlag f) := frame_writeV s regF f

theorem frame_writeResultFlag (s : State) (x : Reg) (b f : Byte) :
    Frame [.v x, .v regF] s (s.writeResultFlag x b f) :=
  ((frame_writeV s x b).andThen (frame_writeFlag _ f)).mono (by simp)

/-- A load of n bytes writes the registers below n (R605). -/
theorem frame_writeRegs (s : State) (bs : List Byte) :
    Frame (((List.range bs.length).map (BitVec.ofNat 4)).map Part.v) s (s.writeRegs bs) := by
  constructor
  case v =>
    intro r hr
    have hlen : bs.length ≤ r.toNat := by
      refine le_of_not_gt fun hlt => hr ?_
      exact List.mem_map_of_mem (List.mem_map.2 ⟨r.toNat, List.mem_range.2 hlt, by simp⟩)
    rw [State.readV_writeRegs, List.getElem?_eq_none hlen, Option.getD_none]
  all_goals simp

theorem frame_writeI (s : State) (a : Word) : Frame [.i] s (s.writeI a) := by
  constructor <;> simp

theorem frame_setDt (s : State) (b : Byte) : Frame [.dt] s { s with dt := b } := by
  constructor
  case dt => simp
  all_goals
    intros
    rfl

theorem frame_setSt (s : State) (b : Byte) : Frame [.st] s { s with st := b } := by
  constructor
  case st => simp
  all_goals
    intros
    rfl

theorem frame_setFb (s : State) (fb : Framebuffer) : Frame [.fb] s { s with fb := fb } := by
  constructor
  case fb => simp
  all_goals
    intros
    rfl

theorem frame_writeCanvas (s : State) (c : Canvas) : Frame [.v regF, .fb] s (s.writeCanvas c) :=
  (frame_setFb s c.1).andThen (frame_writeFlag _ _)

theorem frame_setMem (s : State) (m : Memory) : Frame [.mem] s (s.setMem m) := by
  constructor <;> simp

theorem frame_push (s : State) (r : Word) : Frame [.sp, .stack] s (s.push r) := by
  constructor <;> simp

theorem frame_dropTop (s : State) : Frame [.sp] s s.dropTop := by
  constructor <;> simp

theorem frame_jump (s : State) (p : Word) : Frame [.pc] s (s.jump p) := by
  constructor <;> simp

theorem frame_advance (s : State) : Frame [.pc] s s.advance := frame_jump s _

theorem frame_skipIf (s : State) (c : Bool) : Frame [.pc] s (s.skipIf c) := frame_jump s _

/-! ### One frame for every instruction -/

/-- Fx15, the instruction that writes DT beside the tick (R651). -/
def writesDt : Instr → Bool
  | .ldDtVx _ => true
  | _ => false

/-- Fx18, the instruction that writes ST beside the tick (R652). -/
def writesSt : Instr → Bool
  | .ldStVx _ => true
  | _ => false

/-- The parts where the condition holds, else none. -/
def partsIf (b : Bool) (parts : List Part) : List Part := if b then parts else []

@[simp] theorem mem_partsIf {p : Part} {b : Bool} {parts : List Part} :
    p ∈ partsIf b parts ↔ b = true ∧ p ∈ parts := by
  cases b <;> simp [partsIf]

/-- What an instruction may change: PC, the registers R102 lists for it, and each other piece of state where the rules on
who writes it name the instruction. -/
def mayChange (i : Instr) (cfg : Config.Params) : List Part :=
  Part.pc :: ((writesV i cfg).map Part.v ++ partsIf (writesI i) [.i] ++ partsIf (writesDt i) [.dt] ++
    partsIf (writesSt i) [.st] ++ partsIf (usesStack i) [.sp, .stack] ++ partsIf (writesFb i) [.fb] ++
    partsIf (writesMem i) [.mem])

@[simp] theorem v_mem_mayChange {i : Instr} {cfg : Config.Params} {r : Reg} :
    Part.v r ∈ mayChange i cfg ↔ r ∈ writesV i cfg := by
  simp [mayChange]

@[simp] theorem sp_mem_mayChange {i : Instr} {cfg : Config.Params} :
    Part.sp ∈ mayChange i cfg ↔ usesStack i = true := by
  simp [mayChange]

@[simp] theorem stack_mem_mayChange {i : Instr} {cfg : Config.Params} :
    Part.stack ∈ mayChange i cfg ↔ usesStack i = true := by
  simp [mayChange]

@[simp] theorem fb_mem_mayChange {i : Instr} {cfg : Config.Params} :
    Part.fb ∈ mayChange i cfg ↔ writesFb i = true := by
  simp [mayChange]

/-- An instruction that does not fault answers a next state that differs only in what it may change. -/
theorem frame_of_noFault {i : Instr} {s : State} (hf : faultOf i s = none) :
    ∃ t, exec i s = .next t ∧ Frame (mayChange i s.cfg) s t := by
  cases i with
  | cls => exact ⟨_, rfl, (frame_setFb s _).andThen (frame_advance _)⟩
  | ret =>
    exact ⟨_, exec_ret_of_noFault hf, ((frame_dropTop s).andThen (frame_jump _ _)).mono
      (List.subset_append_left [Part.pc, Part.sp] [Part.stack])⟩
  | call => exact ⟨_, exec_call_of_noFault hf, (frame_push s _).andThen (frame_jump _ _)⟩
  | jp | jpV0 => exact ⟨_, rfl, frame_jump s _⟩
  | seVxKk | sneVxKk | seVxVy | sneVxVy => exact ⟨_, rfl, frame_skipIf s _⟩
  | skp => exact ⟨_, exec_skp_of_noFault hf, frame_skipIf s _⟩
  | sknp => exact ⟨_, exec_sknp_of_noFault hf, frame_skipIf s _⟩
  | ldVxKk | ldVxVy | orVxVy | andVxVy | xorVxVy | rnd | ldVxDt =>
    exact ⟨_, rfl, (frame_writeV s _ _).andThen (frame_advance _)⟩
  | getkey x =>
    refine ⟨_, rfl, ?_⟩
    split
    · exact .refl _ s
    · exact (frame_writeV s x _).andThen (frame_advance _)
  | addVxKk x kk =>
    refine ⟨_, rfl, ?_⟩
    simp only [mayChange, writesV]
    split
    · exact (frame_writeResultFlag s x _ _).andThen (frame_advance _)
    · exact (frame_writeV s x _).andThen (frame_advance _)
  | addVxVy | subVxVy | subnVxVy | shrVx | shlVx =>
    exact ⟨_, rfl, (frame_writeResultFlag s _ _ _).andThen (frame_advance _)⟩
  | gtVxVy | gteVxVy | ltVxVy | lteVxVy => exact ⟨_, rfl, (frame_writeFlag s _).andThen (frame_advance _)⟩
  | ldi | addi => exact ⟨_, rfl, (frame_writeI s _).andThen (frame_advance _)⟩
  | ldsprt => exact ⟨_, exec_ldsprt_of_noFault hf, (frame_writeI s _).andThen (frame_advance _)⟩
  | drw => exact ⟨_, exec_drw_of_noFault hf, (frame_writeCanvas s _).andThen (frame_advance _)⟩
  | ldDtVx => exact ⟨_, rfl, (frame_setDt s _).andThen (frame_advance _)⟩
  | ldStVx => exact ⟨_, rfl, (frame_setSt s _).andThen (frame_advance _)⟩
  | ldbcd | dumpreg =>
    obtain ⟨m, hm, -⟩ := exec_store_of_noFault rfl hf
    exact ⟨_, hm, (frame_setMem s m).andThen (frame_advance _)⟩
  | ldreg x =>
    refine ⟨_, exec_ldreg_of_noFault hf, ((frame_writeRegs s _).andThen (frame_advance _)).mono ?_⟩
    simp [mayChange, writesV]

theorem exec_frame {i : Instr} {s t : State} (hf : faultOf i s = none) (h : exec i s = .next t) :
    Frame (mayChange i s.cfg) s t := by
  obtain ⟨u, hu, hframe⟩ := frame_of_noFault hf
  cases hu.symm.trans h
  exact hframe

end Sys2Proof.Safety

namespace Sys2Proof.Proofs

open Sys2Proof.Machine Sys2Proof.Safety

/-- Settles O53: the frame of the instruction lists the registers of R102. -/
theorem onlyListedRegistersAreWritten : Obligations.OnlyListedRegistersAreWritten := by
  intro i s t hf h r hr
  exact (exec_frame hf h).v r (by simpa using hr)

/-- Settles O56: the frame lists SP and the stack for 2nnn and 00EE alone. -/
theorem onlyCallAndReturnTouchTheStack : Obligations.OnlyCallAndReturnTouchTheStack := by
  intro i s t hf h hi
  have hframe := exec_frame hf h
  have hstack : t.stack = s.stack := hframe.stack (by simp [hi])
  exact ⟨hframe.sp (by simp [hi]), fun j => by rw [State.stackSlot, hstack, State.stackSlot]⟩

/-- Settles O57: the frame lists FB for 00E0 and Dxyn alone. -/
theorem onlyClearAndDrawWritePixels : Obligations.OnlyClearAndDrawWritePixels := by
  intro i s t hf h hi
  exact (exec_frame hf h).fb (by simp [hi])

end Sys2Proof.Proofs

/-! PROOFS. Memory: that only the stores write it (R203), and that the next fetch reads what a store left (R222). -/

namespace Sys2Proof.Machine

open Sys2Proof.Safety

@[simp] theorem mem_mem_mayChange {i : Instr} {cfg : Config.Params} :
    Part.mem ∈ mayChange i cfg ↔ writesMem i = true := by
  simp [mayChange]

/-- A core that can fetch fetches the word at PC (R213, R330). -/
theorem fetch_of_canFetch {s : State} (h : canFetch s) : fetch s = .ok (wordAt s) := by
  obtain ⟨-, hpc, hodd⟩ := h
  exact fetch_ok s hpc hodd

/-- A core that can fetch executes the instruction at PC, after the tick (R330). -/
theorem step_of_exec {s t : State} {i : Instr} (h : canFetch s) (hi : decodeWord (wordAt s) = .ok i)
    (ht : exec i (timerTick s) = .next t) : step s = .next (endStep t) := by
  rw [step_fetch_ok h.1 (fetch_of_canFetch h), dispatchWord, hi]
  exact congrArg thenEndStep ht

/-- Fx55 in range goes on with Vk in the k-th byte from I, for every k up to x (R604). -/
theorem exec_dumpreg_of_inRange {s : State} {x : Reg} (h : inRange s (x.toNat + 1)) :
    ∃ m, exec (.dumpreg x) s = .next (s.setMem m).advance ∧
      ∀ k, k ≤ x.toNat → (s.setMem m).readByte (s.i.toNat + k) = s.readV (BitVec.ofNat 4 k) := by
  have hfits : s.i.toNat + (s.regsTo x).length ≤ 0x1000 := by
    rw [State.length_regsTo]
    exact h.resolve_left (Nat.succ_ne_zero _)
  obtain ⟨m, hm, -, hread⟩ := storeAtI_ok (.dumpreg x) s (s.regsTo x) (.inr hfits)
  refine ⟨m, congrArg _ hm, fun k hk => ?_⟩
  rw [State.readByte_setMem, hread, if_pos (Nat.le_add_right _ _), Nat.add_sub_cancel_left,
    s.regsTo_getElem? x k hk, Option.getD_some]

end Sys2Proof.Machine

namespace Sys2Proof.Proofs

open Sys2Proof.Machine Sys2Proof.Safety

/-- Settles O54: the frame lists memory for Fx33 and Fx55 alone. -/
theorem onlyBcdAndDumpWriteMemory : Obligations.OnlyBcdAndDumpWriteMemory := by
  intro i s t hf h hi
  exact (exec_frame hf h).mem (by simp [hi])

/-- Settles O18: Fx55 leaves V0 and V1 at I and I + 1, where PC stands after it, and the fetch reads the two bytes there:
nothing lies between a store and the next fetch. -/
theorem storedWordIsFetchedNext : Obligations.StoredWordIsFetchedNext := by
  intro s x hs hi hx hI hr
  obtain ⟨m, hm, hread⟩ := exec_dumpreg_of_inRange (s := timerTick s) (x := x) hr
  have hstep := step_of_exec hs hi hm
  obtain ⟨-, hpc, hodd⟩ := hs
  have hfits : s.i.toNat + (x.toNat + 1) ≤ 0x1000 := hr.resolve_left (Nat.succ_ne_zero _)
  have hnext : (endStep ((timerTick s).setMem m).advance).pc.toNat = s.i.toNat := by
    rw [endStep_pc, State.advance_pc, State.setMem_pc, timerTick_pc, BitVec.toNat_add]
    simp
    omega
  refine ⟨_, hstep, hnext.trans hI, (fetch_ok _ (by omega) fun ho => ?_).trans ?_⟩
  · have heven : s.pc.toNat % 2 = 0 := hodd ho
    omega
  · rw [hnext]
    exact congrArg Except.ok (congrArg₂ wordOfBytes (hread 0 (Nat.zero_le _)) (hread 1 hx))

end Sys2Proof.Proofs

/-! PROOFS. Decoding and encoding (spec/30_encoding.md R301, R304): the fields of an encoded word, and a word put
together again from its fields; from them both round trips. -/

namespace Sys2Proof

/-! ### The fields of an encoded word -/

@[simp] theorem wordOp_encodeXyn (op : Nibble) (x y : Reg) (n : Nibble) : wordOp (encodeXyn op x y n) = op :=
  BitVec.eq_of_toNat_eq (by rw [toNat_wordOp, toNat_encodeXyn]; omega)

@[simp] theorem wordX_encodeXyn (op : Nibble) (x y : Reg) (n : Nibble) : wordX (encodeXyn op x y n) = x :=
  BitVec.eq_of_toNat_eq (by rw [toNat_wordX, toNat_encodeXyn]; omega)

@[simp] theorem wordY_encodeXyn (op : Nibble) (x y : Reg) (n : Nibble) : wordY (encodeXyn op x y n) = y :=
  BitVec.eq_of_toNat_eq (by rw [toNat_wordY, toNat_encodeXyn]; omega)

@[simp] theorem wordN_encodeXyn (op : Nibble) (x y : Reg) (n : Nibble) : wordN (encodeXyn op x y n) = n :=
  BitVec.eq_of_toNat_eq (by rw [toNat_wordN, toNat_encodeXyn]; omega)

@[simp] theorem wordOp_encodeXkk (op : Nibble) (x : Reg) (kk : Byte) : wordOp (encodeXkk op x kk) = op :=
  BitVec.eq_of_toNat_eq (by rw [toNat_wordOp, toNat_encodeXkk]; omega)

@[simp] theorem wordX_encodeXkk (op : Nibble) (x : Reg) (kk : Byte) : wordX (encodeXkk op x kk) = x :=
  BitVec.eq_of_toNat_eq (by rw [toNat_wordX, toNat_encodeXkk]; omega)

@[simp] theorem wordKk_encodeXkk (op : Nibble) (x : Reg) (kk : Byte) : wordKk (encodeXkk op x kk) = kk :=
  BitVec.eq_of_toNat_eq (by rw [toNat_wordKk, toNat_encodeXkk]; omega)

@[simp] theorem wordOp_encodeNnn (op : Nibble) (nnn : Addr) : wordOp (encodeNnn op nnn) = op :=
  BitVec.eq_of_toNat_eq (by rw [toNat_wordOp, toNat_encodeNnn]; omega)

@[simp] theorem wordNnn_encodeNnn (op : Nibble) (nnn : Addr) : wordNnn (encodeNnn op nnn) = nnn :=
  BitVec.eq_of_toNat_eq (by rw [toNat_wordNnn, toNat_encodeNnn]; omega)

/-! ### A word from its fields -/

theorem encodeXyn_fields {w : Word} {op n : Nibble} (hop : wordOp w = op) (hn : wordN w = n) :
    encodeXyn op (wordX w) (wordY w) n = w := by
  subst hop hn
  refine BitVec.eq_of_toNat_eq ?_
  rw [toNat_encodeXyn, toNat_wordOp, toNat_wordX, toNat_wordY, toNat_wordN]
  omega

theorem encodeXkk_fields {w : Word} {op : Nibble} {kk : Byte} (hop : wordOp w = op) (hkk : wordKk w = kk) :
    encodeXkk op (wordX w) kk = w := by
  subst hop hkk
  refine BitVec.eq_of_toNat_eq ?_
  rw [toNat_encodeXkk, toNat_wordOp, toNat_wordX, toNat_wordKk]
  omega

theorem encodeNnn_fields {w : Word} {op : Nibble} (hop : wordOp w = op) : encodeNnn op (wordNnn w) = w := by
  subst hop
  refine BitVec.eq_of_toNat_eq ?_
  rw [toNat_encodeNnn, toNat_wordOp, toNat_wordNnn]
  omega

/-! ### Decoding an encoding -/

/-- The word of an instruction decodes to it: the decoder's tests see the opcode and the selector the encoder put there,
and its operands are the fields the encoder filled. -/
theorem decodeWord_encode (i : Instr) : decodeWord (encode i) = .ok i := by
  cases i with
  | cls | ret => rfl
  | jp | call | ldi | jpV0 => simp [encode, decodeWord]
  | seVxKk | sneVxKk | ldVxKk | addVxKk | rnd => simp [encode, decodeWord]
  | seVxVy => simp [encode, decodeWord, decodeOp5]
  | ldVxVy | orVxVy | andVxVy | xorVxVy | addVxVy | subVxVy | shrVx | subnVxVy | shlVx =>
    simp [encode, decodeWord, decodeOp8]
  | sneVxVy | gtVxVy | gteVxVy | ltVxVy | lteVxVy => simp [encode, decodeWord, decodeOp9]
  | drw => simp [encode, decodeWord]
  | skp | sknp => simp [encode, decodeWord, decodeOpE]
  | ldVxDt | getkey | ldDtVx | ldStVx | addi | ldsprt | ldbcd | dumpreg | ldreg =>
    simp [encode, decodeWord, decodeOpF]

/-- Two bytes decode as the word they make (R213). -/
theorem decode_bytes {hi lo : Byte} {i : Instr} (h : decodeWord (wordOfBytes hi lo) = .ok i) (rest : List Byte) :
    decode (hi :: lo :: rest) = .ok (i, rest) := by
  rw [decode, h]

theorem decodeWord_of_decode_bytes {hi lo : Byte} {i : Instr} {rest : List Byte}
    (h : decode [hi, lo] = .ok (i, rest)) : decodeWord (wordOfBytes hi lo) = .ok i := by
  rw [decode] at h
  split at h
  · next j hj =>
    cases h
    exact hj
  · cases h

/-! ### Encoding a decoding -/

/-- What the decoder may answer for `w`: an instruction whose word is `w`, or that `w` is illegal. -/
inductive Answers (w : Word) : Except DecodeError Instr → Prop where
  | instr {i : Instr} (h : encode i = w) : Answers w (.ok i)
  | illegal : Answers w (.error (.illegal w))

theorem Answers.ite {w : Word} {p : Prop} [Decidable p] {a b : Except DecodeError Instr} (ha : p → Answers w a)
    (hb : ¬p → Answers w b) : Answers w (if p then a else b) := by
  split
  · next h => exact ha h
  · next h => exact hb h

theorem decodeOp0_answers (w : Word) : Answers w (decodeOp0 w) := by
  iterate 2 refine .ite (fun h => .instr h.symm) fun _ => ?_
  exact .illegal

theorem decodeOp5_answers {w : Word} (hop : wordOp w = 0x5) : Answers w (decodeOp5 w) :=
  .ite (fun hn => .instr (encodeXyn_fields hop hn)) fun _ => .illegal

theorem decodeOp8_answers {w : Word} (hop : wordOp w = 0x8) : Answers w (decodeOp8 w) := by
  iterate 9 refine .ite (fun hn => .instr (encodeXyn_fields hop hn)) fun _ => ?_
  exact .illegal

theorem decodeOp9_answers {w : Word} (hop : wordOp w = 0x9) : Answers w (decodeOp9 w) := by
  iterate 5 refine .ite (fun hn => .instr (encodeXyn_fields hop hn)) fun _ => ?_
  exact .illegal

theorem decodeOpE_answers {w : Word} (hop : wordOp w = 0xE) : Answers w (decodeOpE w) := by
  iterate 2 refine .ite (fun hkk => .instr (encodeXkk_fields hop hkk)) fun _ => ?_
  exact .illegal

theorem decodeOpF_answers {w : Word} (hop : wordOp w = 0xF) : Answers w (decodeOpF w) := by
  iterate 9 refine .ite (fun hkk => .instr (encodeXkk_fields hop hkk)) fun _ => ?_
  exact .illegal

theorem decodeWord_answers (w : Word) : Answers w (decodeWord w) := by
  refine .ite (fun _ => decodeOp0_answers w) fun _ => ?_
  iterate 2 refine .ite (fun hop => .instr (encodeNnn_fields hop)) fun _ => ?_
  iterate 2 refine .ite (fun hop => .instr (encodeXkk_fields hop rfl)) fun _ => ?_
  refine .ite (fun hop => decodeOp5_answers hop) fun _ => ?_
  iterate 2 refine .ite (fun hop => .instr (encodeXkk_fields hop rfl)) fun _ => ?_
  refine .ite (fun hop => decodeOp8_answers hop) fun _ => ?_
  refine .ite (fun hop => decodeOp9_answers hop) fun _ => ?_
  iterate 2 refine .ite (fun hop => .instr (encodeNnn_fields hop)) fun _ => ?_
  refine .ite (fun hop => .instr (encodeXkk_fields hop rfl)) fun _ => ?_
  refine .ite (fun hop => .instr (encodeXyn_fields hop rfl)) fun _ => ?_
  refine .ite (fun hop => decodeOpE_answers hop) fun _ => ?_
  have hop : wordOp w = 0xF := by bv_omega
  exact decodeOpF_answers hop

theorem encode_of_decodeWord {w : Word} {i : Instr} (h : decodeWord w = .ok i) : encode i = w := by
  cases h ▸ decodeWord_answers w with
  | instr hi => exact hi

/-- Decoding succeeds or says that the word is illegal. -/
theorem decodeWord_eq_ok_or_illegal (w : Word) :
    (∃ i, decodeWord w = .ok i) ∨ decodeWord w = .error (.illegal w) := by
  cases h : decodeWord w with
  | ok i => exact .inl ⟨i, rfl⟩
  | error e =>
    cases h ▸ decodeWord_answers w with
    | illegal => exact .inr rfl

end Sys2Proof

namespace Sys2Proof.Proofs

/-- Settles O2: the two bytes of a word make the word again, and the decoder undoes the encoder. -/
theorem decodeOfEncodeIsTheInstruction : Obligations.DecodeOfEncodeIsTheInstruction := by
  intro i rest _
  refine decode_bytes ?_ rest
  rw [wordOfBytes_bytes, decodeWord_encode]

/-- Settles O3: whichever branch the decoder takes, its tests and its operands together hold every field of the word. -/
theorem encodeOfDecodeIsTheWord : Obligations.EncodeOfDecodeIsTheWord :=
  fun _ _ h => encode_of_decodeWord h

end Sys2Proof.Proofs

/-! PROOFS. The decoder against the opcode table (R304): rows exclude one another, the word of an instruction matches
the instruction's row, and a word that matches a row is the word of an instruction of that row. -/

namespace Sys2Proof

/-! ### No word matches two rows -/

/-- Two rows fix a common bit differently. -/
abbrev OpcodeRow.Excludes (r r' : OpcodeRow) : Prop := r.code &&& r'.mask ≠ r'.code &&& r.mask

theorem OpcodeRow.Excludes.not_both {r r' : OpcodeRow} (h : r.Excludes r') {w : Word} (hr : r.matchesWord w = true) :
    r'.matchesWord w = false := by
  refine Bool.eq_false_iff.2 fun hr' => h ?_
  rw [← beq_iff_eq.1 hr, ← beq_iff_eq.1 hr', BitVec.and_assoc, BitVec.and_assoc, BitVec.and_comm r.mask]

theorem opcodeTable_excludes : opcodeTable.Pairwise OpcodeRow.Excludes := by decide

theorem length_filter_matchesWord_le (w : Word) : (opcodeTable.filter fun r => r.matchesWord w).length ≤ 1 := by
  have hpair := opcodeTable_excludes.sublist (List.filter_sublist (p := fun r => r.matchesWord w))
  have hall : ∀ r ∈ opcodeTable.filter fun r => r.matchesWord w, r.matchesWord w = true :=
    fun r hr => (List.mem_filter.1 hr).2
  cases hl : opcodeTable.filter fun r => r.matchesWord w with
  | nil => exact Nat.zero_le 1
  | cons r l =>
    cases l with
    | nil => exact le_refl 1
    | cons r' l =>
      rw [hl] at hpair hall
      have hexcl : r.Excludes r' := List.rel_of_pairwise_cons hpair List.mem_cons_self
      have hr : r.matchesWord w = true := hall r List.mem_cons_self
      have hr' : r'.matchesWord w = true := hall r' (List.mem_cons_of_mem r List.mem_cons_self)
      exact absurd hr' (by simp [hexcl.not_both hr])

/-! ### The word of an instruction matches its row -/

theorem rowMatch (i : Instr) : Laws.RowMatch.Statement i := by
  open Laws.RowMatch in
  cases i with
  | cls => exact cls
  | ret => exact ret
  | jp nnn => exact jp nnn
  | call nnn => exact call nnn
  | seVxKk x kk => exact seVxKk x kk
  | sneVxKk x kk => exact sneVxKk x kk
  | seVxVy x y => exact seVxVy x y
  | ldVxKk x kk => exact ldVxKk x kk
  | addVxKk x kk => exact addVxKk x kk
  | ldVxVy x y => exact ldVxVy x y
  | orVxVy x y => exact orVxVy x y
  | andVxVy x y => exact andVxVy x y
  | xorVxVy x y => exact xorVxVy x y
  | addVxVy x y => exact addVxVy x y
  | subVxVy x y => exact subVxVy x y
  | shrVx x y => exact shrVx x y
  | subnVxVy x y => exact subnVxVy x y
  | shlVx x y => exact shlVx x y
  | sneVxVy x y => exact sneVxVy x y
  | gtVxVy x y => exact gtVxVy x y
  | gteVxVy x y => exact gteVxVy x y
  | ltVxVy x y => exact ltVxVy x y
  | lteVxVy x y => exact lteVxVy x y
  | ldi nnn => exact ldi nnn
  | jpV0 nnn => exact jpV0 nnn
  | rnd x kk => exact rnd x kk
  | drw x y n => exact drw x y n
  | skp x => exact skp x
  | sknp x => exact sknp x
  | ldVxDt x => exact ldVxDt x
  | getkey x => exact getkey x
  | ldDtVx x => exact ldDtVx x
  | ldStVx x => exact ldStVx x
  | addi x => exact addi x
  | ldsprt x => exact ldsprt x
  | ldbcd x => exact ldbcd x
  | dumpreg x => exact dumpreg x
  | ldreg x => exact ldreg x

/-! ### A word that matches a row -/

theorem wordOp_of_and {w m c : Word} (h : w &&& m = c) (hm : wordOp m = 0xF) : wordOp w = wordOp c := by
  have hand : wordOp (w &&& m) = wordOp w &&& wordOp m := BitVec.extractLsb'_and ..
  rw [← h, hand, hm]
  exact BitVec.and_allOnes.symm

theorem wordN_of_and {w m c : Word} (h : w &&& m = c) (hm : wordN m = 0xF) : wordN w = wordN c := by
  have hand : wordN (w &&& m) = wordN w &&& wordN m := BitVec.extractLsb'_and ..
  rw [← h, hand, hm]
  exact BitVec.and_allOnes.symm

theorem wordKk_of_and {w m c : Word} (h : w &&& m = c) (hm : wordKk m = 0xFF) : wordKk w = wordKk c := by
  have hand : wordKk (w &&& m) = wordKk w &&& wordKk m := BitVec.extractLsb'_and ..
  rw [← h, hand, hm]
  exact BitVec.and_allOnes.symm

/-- A word that matches a row is the word of the instruction of that row with the word's own fields as operands. -/
theorem exists_encode_of_matchesWord {r : OpcodeRow} {w : Word} (hr : r ∈ opcodeTable) (h : r.matchesWord w = true) :
    ∃ i, encode i = w ∧ i.row = r := by
  have hw : w &&& r.mask = r.code := beq_iff_eq.1 h
  have hop := wordOp_of_and hw
  have hn := wordN_of_and hw
  have hkk := wordKk_of_and hw
  fin_cases hr
  · exact ⟨.cls, hw.symm.trans BitVec.and_allOnes, rfl⟩
  · exact ⟨.ret, hw.symm.trans BitVec.and_allOnes, rfl⟩
  · exact ⟨.jp (wordNnn w), encodeNnn_fields (hop rfl), rfl⟩
  · exact ⟨.call (wordNnn w), encodeNnn_fields (hop rfl), rfl⟩
  · exact ⟨.seVxKk (wordX w) (wordKk w), encodeXkk_fields (hop rfl) rfl, rfl⟩
  · exact ⟨.sneVxKk (wordX w) (wordKk w), encodeXkk_fields (hop rfl) rfl, rfl⟩
  · exact ⟨.seVxVy (wordX w) (wordY w), encodeXyn_fields (hop rfl) (hn rfl), rfl⟩
  · exact ⟨.ldVxKk (wordX w) (wordKk w), encodeXkk_fields (hop rfl) rfl, rfl⟩
  · exact ⟨.addVxKk (wordX w) (wordKk w), encodeXkk_fields (hop rfl) rfl, rfl⟩
  · exact ⟨.ldVxVy (wordX w) (wordY w), encodeXyn_fields (hop rfl) (hn rfl), rfl⟩
  · exact ⟨.orVxVy (wordX w) (wordY w), encodeXyn_fields (hop rfl) (hn rfl), rfl⟩
  · exact ⟨.andVxVy (wordX w) (wordY w), encodeXyn_fields (hop rfl) (hn rfl), rfl⟩
  · exact ⟨.xorVxVy (wordX w) (wordY w), encodeXyn_fields (hop rfl) (hn rfl), rfl⟩
  · exact ⟨.addVxVy (wordX w) (wordY w), encodeXyn_fields (hop rfl) (hn rfl), rfl⟩
  · exact ⟨.subVxVy (wordX w) (wordY w), encodeXyn_fields (hop rfl) (hn rfl), rfl⟩
  · exact ⟨.shrVx (wordX w) (wordY w), encodeXyn_fields (hop rfl) (hn rfl), rfl⟩
  · exact ⟨.subnVxVy (wordX w) (wordY w), encodeXyn_fields (hop rfl) (hn rfl), rfl⟩
  · exact ⟨.shlVx (wordX w) (wordY w), encodeXyn_fields (hop rfl) (hn rfl), rfl⟩
  · exact ⟨.sneVxVy (wordX w) (wordY w), encodeXyn_fields (hop rfl) (hn rfl), rfl⟩
  · exact ⟨.gtVxVy (wordX w) (wordY w), encodeXyn_fields (hop rfl) (hn rfl), rfl⟩
  · exact ⟨.gteVxVy (wordX w) (wordY w), encodeXyn_fields (hop rfl) (hn rfl), rfl⟩
  · exact ⟨.ltVxVy (wordX w) (wordY w), encodeXyn_fields (hop rfl) (hn rfl), rfl⟩
  · exact ⟨.lteVxVy (wordX w) (wordY w), encodeXyn_fields (hop rfl) (hn rfl), rfl⟩
  · exact ⟨.ldi (wordNnn w), encodeNnn_fields (hop rfl), rfl⟩
  · exact ⟨.jpV0 (wordNnn w), encodeNnn_fields (hop rfl), rfl⟩
  · exact ⟨.rnd (wordX w) (wordKk w), encodeXkk_fields (hop rfl) rfl, rfl⟩
  · exact ⟨.drw (wordX w) (wordY w) (wordN w), encodeXyn_fields (hop rfl) rfl, rfl⟩
  · exact ⟨.skp (wordX w), encodeXkk_fields (hop rfl) (hkk rfl), rfl⟩
  · exact ⟨.sknp (wordX w), encodeXkk_fields (hop rfl) (hkk rfl), rfl⟩
  · exact ⟨.ldVxDt (wordX w), encodeXkk_fields (hop rfl) (hkk rfl), rfl⟩
  · exact ⟨.getkey (wordX w), encodeXkk_fields (hop rfl) (hkk rfl), rfl⟩
  · exact ⟨.ldDtVx (wordX w), encodeXkk_fields (hop rfl) (hkk rfl), rfl⟩
  · exact ⟨.ldStVx (wordX w), encodeXkk_fields (hop rfl) (hkk rfl), rfl⟩
  · exact ⟨.addi (wordX w), encodeXkk_fields (hop rfl) (hkk rfl), rfl⟩
  · exact ⟨.ldsprt (wordX w), encodeXkk_fields (hop rfl) (hkk rfl), rfl⟩
  · exact ⟨.ldbcd (wordX w), encodeXkk_fields (hop rfl) (hkk rfl), rfl⟩
  · exact ⟨.dumpreg (wordX w), encodeXkk_fields (hop rfl) (hkk rfl), rfl⟩
  · exact ⟨.ldreg (wordX w), encodeXkk_fields (hop rfl) (hkk rfl), rfl⟩

/-- A word that decodes matches a row, that of its instruction. -/
theorem exists_matchesWord_of_decodeWord {w : Word} {i : Instr} (h : decodeWord w = .ok i) :
    ∃ r ∈ opcodeTable, r.matchesWord w = true := by
  obtain ⟨hmem, hcode⟩ := rowMatch i
  rw [encode_of_decodeWord h] at hcode
  exact ⟨i.row, hmem, beq_iff_eq.2 hcode⟩

theorem decodeWord_illegal_of_no_match {w : Word} (h : ∀ r ∈ opcodeTable, r.matchesWord w = false) :
    decodeWord w = .error (.illegal w) := by
  refine (decodeWord_eq_ok_or_illegal w).resolve_left ?_
  rintro ⟨i, hi⟩
  obtain ⟨r, hr, hrw⟩ := exists_matchesWord_of_decodeWord hi
  exact absurd hrw (by simp [h r hr])

/-! ### The illegal words (R306) -/

/-- A chain of tests ends in an error when no test holds and its end is that error. -/
theorem ite_ok_eq_error {p : Prop} [Decidable p] {i : Instr} {r : Except DecodeError Instr} {e : DecodeError} :
    (if p then .ok i else r) = .error e ↔ ¬p ∧ r = .error e := by
  split <;> simp_all

theorem wordOp_eq_iff (w : Word) (op : Nibble) : wordOp w = op ↔ w.toNat / 0x1000 = op.toNat := by
  rw [← BitVec.toNat_inj, toNat_wordOp]

theorem wordN_eq_iff (w : Word) (n : Nibble) : wordN w = n ↔ w.toNat % 16 = n.toNat := by
  rw [← BitVec.toNat_inj, toNat_wordN]

theorem wordKk_eq_iff (w : Word) (kk : Byte) : wordKk w = kk ↔ w.toNat % 256 = kk.toNat := by
  rw [← BitVec.toNat_inj, toNat_wordKk]

theorem decodeOp0_illegal (w : Word) : decodeOp0 w = .error (.illegal w) ↔ w ≠ 0x00E0 ∧ w ≠ 0x00EE := by
  simp [decodeOp0, ite_ok_eq_error]

theorem decodeOp5_illegal (w : Word) : decodeOp5 w = .error (.illegal w) ↔ w.toNat % 16 ≠ 0 := by
  simp [decodeOp5, wordN_eq_iff]

theorem decodeOp8_illegal (w : Word) :
    decodeOp8 w = .error (.illegal w) ↔ w.toNat % 16 ∈ [0x8, 0x9, 0xA, 0xB, 0xC, 0xD, 0xF] := by
  simp only [decodeOp8, ite_ok_eq_error, wordN_eq_iff, BitVec.reduceToNat, and_true, List.mem_cons, List.not_mem_nil, or_false]
  omega

theorem decodeOp9_illegal (w : Word) : decodeOp9 w = .error (.illegal w) ↔ 5 ≤ w.toNat % 16 := by
  simp only [decodeOp9, ite_ok_eq_error, wordN_eq_iff, BitVec.reduceToNat, and_true]
  omega

theorem decodeOpE_illegal (w : Word) : decodeOpE w = .error (.illegal w) ↔ w.toNat % 256 ∉ [0x9E, 0xA1] := by
  simp [decodeOpE, ite_ok_eq_error, wordKk_eq_iff]

theorem decodeOpF_illegal (w : Word) :
    decodeOpF w = .error (.illegal w) ↔
      w.toNat % 256 ∉ [0x07, 0x0A, 0x15, 0x18, 0x1E, 0x29, 0x33, 0x55, 0x65] := by
  simp [decodeOpF, ite_ok_eq_error, wordKk_eq_iff]

/-- A word is illegal when its opcode's own decoder refuses it. -/
theorem decodeWord_illegal (w : Word) : decodeWord w = .error (.illegal w) ↔
    (wordOp w = 0x0 ∧ decodeOp0 w = .error (.illegal w)) ∨ (wordOp w = 0x5 ∧ decodeOp5 w = .error (.illegal w)) ∨
    (wordOp w = 0x8 ∧ decodeOp8 w = .error (.illegal w)) ∨ (wordOp w = 0x9 ∧ decodeOp9 w = .error (.illegal w)) ∨
    (wordOp w = 0xE ∧ decodeOpE w = .error (.illegal w)) ∨ (wordOp w = 0xF ∧ decodeOpF w = .error (.illegal w)) := by
  have hop : wordOp w = BitVec.ofFin (wordOp w).toFin := rfl
  generalize (wordOp w).toFin = k at hop
  fin_cases k <;> simp [decodeWord, hop]

end Sys2Proof

namespace Sys2Proof.Proofs

/-- Settles O4: the rows exclude one another; a word that matches a row is the word of an instruction of that row, and
decodes to it; a word that decodes matches the row of its instruction. -/
theorem decoderFollowsTheOpcodeTable : Obligations.DecoderFollowsTheOpcodeTable := by
  refine fun w => ⟨length_filter_matchesWord_le w, fun r hr hrw => ?_, decodeWord_illegal_of_no_match⟩
  obtain ⟨i, rfl, hi⟩ := exists_encode_of_matchesWord hr hrw
  exact ⟨i, decodeWord_encode i, hi⟩

/-- Settles O5: each of the six sets is what one opcode's decoder refuses. -/
theorem illegalWordsAreTheSixSets : Obligations.IllegalWordsAreTheSixSets := by
  intro w
  rw [decodeWord_illegal, decodeOp0_illegal, decodeOp5_illegal, decodeOp8_illegal, decodeOp9_illegal, decodeOpE_illegal,
    decodeOpF_illegal]
  simp only [wordOp_eq_iff]
  rfl

end Sys2Proof.Proofs

/-! PROOFS. The step around the decoder (R306, R330, R332, R333): an illegal word, a halted core, and totality. -/

namespace Sys2Proof.Machine

open Sys2Proof.Safety

/-- Every word is dispatched to a next state: an instruction's, or that of the fault. -/
theorem dispatchWord_next (w : Word) (s : State) : ∃ t, dispatchWord w s = .next t := by
  unfold dispatchWord
  split
  · exact ⟨_, rfl⟩
  · next i _ =>
    obtain ⟨t, ht, -⟩ := exec_next_sameModelFields i s
    exact ⟨t, ht⟩

theorem step_next (s : State) : ∃ t, step s = .next t := by
  cases hs : s.status.halted with
  | true => exact ⟨s, step_halted hs⟩
  | false =>
    cases hf : fetch s with
    | error f => exact ⟨_, step_fetch_error hs hf⟩
    | ok w =>
      obtain ⟨t, ht⟩ := dispatchWord_next w (timerTick s)
      exact ⟨endStep t, by rw [step_fetch_ok hs hf, ht, thenEndStep]⟩

/-- A core that can fetch halts at a word that does not decode, after the tick (R306, R330). -/
theorem step_of_illegal {s : State} {e : DecodeError} (h : canFetch s) (he : decodeWord (wordAt s) = .error e) :
    step s = .next (endStep (raiseFault .illegalOpcode (wordAt s) 0 (timerTick s))) := by
  rw [step_fetch_ok h.1 (fetch_of_canFetch h), dispatchWord, he, thenEndStep]

theorem run_halted {s : State} (h : bad s) (k : Nat) : Host.Core.run core k s = .next s := by
  induction k with
  | zero => exact run_zero s
  | succ k ih => rw [run_succ_next k (step_halted h), ih]

end Sys2Proof.Machine

namespace Sys2Proof.Proofs

open Sys2Proof.Machine Sys2Proof.Safety

/-- Settles O12, by induction on the number of steps. -/
theorem haltedCoreStaysAsItIs : Obligations.HaltedCoreStaysAsItIs :=
  fun k _ h => run_halted h k

/-- Settles O14: a word of no row does not decode, and the tick before the fault leaves PC. -/
theorem illegalWordHaltsTheCore : Obligations.IllegalWordHaltsTheCore := by
  intro s hs hw
  have hillegal : decodeWord (wordAt s) = .error (.illegal (wordAt s)) :=
    decodeWord_illegal_of_no_match (by simpa [Word.wellFormed] using hw)
  exact ⟨_, step_of_illegal hs hillegal, rfl⟩

/-- Settles O17: the halted state, a fetch fault and a dispatch each answer a next state. -/
theorem everyStepAnswersANextState : Obligations.EveryStepAnswersANextState := step_next

/-- Settles O1: each of the ten words is that of its instruction. -/
theorem wordsOfEachFamilyDecode : Obligations.WordsOfEachFamilyDecode := by
  unfold Obligations.WordsOfEachFamilyDecode
  decide

/-- Settles O9: the two bytes at PC decode as the word the step fetches. -/
theorem stepRunsTheDecodedInstruction : Obligations.StepRunsTheDecodedInstruction :=
  fun _ _ _ hs hi ht => ⟨step_of_exec hs (decodeWord_of_decode_bytes hi) ht, rfl⟩

end Sys2Proof.Proofs

/-! PROOFS. Control transfer (spec/40_control.md): the fault of a bad target at the next fetch, and the call stack. -/

namespace Sys2Proof.Machine

open Sys2Proof.Safety

/-- A running core whose fetch faults records that fault, with word 0 (R330, R800). -/
theorem step_status_of_fetch_error {s : State} {c : Cause} {a : Nat} (h : s.status.halted = false)
    (hf : fetch s = .error (c, a)) : ∃ u, step s = .next u ∧ u.status = faulted c s.pc 0 a :=
  ⟨_, step_fetch_error h hf, rfl⟩

/-- V0 + nnn fits in PC, so Bnnn adds without wrapping (R404). -/
theorem toNat_jpV0_target (b : Byte) (nnn : Addr) : (zextByte b + zextAddr nnn).toNat = b.toNat + nnn.toNat := by
  rw [BitVec.toNat_add, toNat_zextByte, toNat_zextAddr]
  omega

/-! ### The call stack (R120) -/

theorem stackSlot_congr {s t : State} (h : t.stack = s.stack) (j : Nat) : t.stackSlot j = s.stackSlot j := by
  rw [State.stackSlot, h, State.stackSlot]

theorem toNat_push_sp {s : State} (r : Word) (h : s.sp.toNat ≤ 15) : (s.push r).sp.toNat = s.sp.toNat + 1 := by
  rw [State.push_sp, BitVec.toNat_add]
  simp
  omega

theorem exec_call_of_sp_le {nnn : Addr} {s : State} (h : s.sp.toNat ≤ 15) :
    exec (.call nnn) s = .next ((s.push (s.pc + 2)).jump (zextAddr nnn)) :=
  exec_call_of_noFault (if_neg (Nat.not_lt.2 h))

theorem exec_ret_of_sp_pos {s : State} (h : 1 ≤ s.sp.toNat) :
    exec .ret s = .next (s.dropTop.jump (s.stackSlot (s.sp.toNat - 1))) := by
  have hsp : s.sp.toNat ≠ 0 := Nat.one_le_iff_ne_zero.1 h
  rw [exec_ret_of_noFault (if_neg hsp), toNat_dropTop_sp hsp, stackSlot_congr s.dropTop_stack]

end Sys2Proof.Machine

namespace Sys2Proof.Safety

open Sys2Proof.Machine

/-- SP need not be listed where it ends as it was. -/
theorem Frame.of_cons_sp {c : List Part} {s t : State} (h : Frame (.sp :: c) s t) (hsp : t.sp = s.sp) :
    Frame c s t where
  v r hr := h.v r (by simpa using hr)
  pc hp := h.pc (by simpa using hp)
  i hp := h.i (by simpa using hp)
  dt hp := h.dt (by simpa using hp)
  st hp := h.st (by simpa using hp)
  sp _ := hsp
  stack hp := h.stack (by simpa using hp)
  fb hp := h.fb (by simpa using hp)
  mem hp := h.mem (by simpa using hp)
  status := h.status
  cfg := h.cfg
  supplied := h.supplied
  drawn := h.drawn

end Sys2Proof.Safety

namespace Sys2Proof.Proofs

open Sys2Proof.Machine Sys2Proof.Safety

/-- Settles O21: the jump writes PC alone, and the fetch at its target answers the fault. -/
theorem jumpWritesPcAndFaultsOnlyAtTheNextFetch : Obligations.JumpWritesPcAndFaultsOnlyAtTheNextFetch := by
  intro nnn s
  have hpc : (s.jump (zextAddr nnn)).pc.toNat = nnn.toNat := toNat_zextAddr nnn
  refine ⟨_, rfl, hpc, frame_jump s _, fun hrun ho hodd => ?_, fun hrun ho htop => ?_⟩
  · exact step_status_of_fetch_error hrun (fetch_misaligned _ ho (by rw [hpc, hodd]))
  · have hf := fetch_range (s.jump (zextAddr nnn)) (by rw [hpc, htop]) fun h => absurd (ho.symm.trans h) (by decide)
    rw [hpc, htop] at hf
    exact step_status_of_fetch_error hrun hf

/-- Settles O22: the sum is below 2^16. -/
theorem jumpV0AddsWithoutWrap : Obligations.JumpV0AddsWithoutWrap :=
  fun nnn s => ⟨_, rfl, toNat_jpV0_target _ nnn, frame_jump s _⟩

/-- Settles O23: the push writes the slot SP names, before the jump. -/
theorem callPushesTheReturnAddress : Obligations.CallPushesTheReturnAddress := by
  intro nnn s hsp
  have hslot := fun j => s.stackSlot_push (s.pc + 2) j (Nat.lt_succ_of_le hsp)
  refine ⟨_, exec_call_of_sp_le hsp, toNat_zextAddr nnn, toNat_push_sp (s.pc + 2) hsp, ?_, fun j hj => ?_,
    (frame_push s _).andThen (frame_jump _ _)⟩
  · exact (hslot s.sp.toNat).trans (if_pos rfl)
  · exact (hslot j).trans (if_neg hj)

/-- Settles O24: the pop writes SP alone, and the jump PC alone. -/
theorem returnPopsTheReturnAddress : Obligations.ReturnPopsTheReturnAddress := by
  intro s hpos _
  exact ⟨_, exec_ret_of_sp_pos hpos, toNat_dropTop_sp (Nat.one_le_iff_ne_zero.1 hpos), rfl,
    (frame_dropTop s).andThen (frame_jump _ _)⟩

/-- Settles O25: the return pops what the call pushed (O23, O24), so SP ends as it was. -/
theorem returnAfterCallResumesAfterIt : Obligations.ReturnAfterCallResumesAfterIt := by
  intro nnn s hsp
  obtain ⟨t, ht, -, htsp, htop, hslots, hcall⟩ := callPushesTheReturnAddress nnn s hsp
  obtain ⟨u, hu, husp, hupc, hret⟩ := returnPopsTheReturnAddress t (by omega) (by omega)
  have hsp' : t.sp.toNat - 1 = s.sp.toNat := by omega
  have hstack : u.stack = t.stack := hret.stack (by decide)
  refine ⟨t, u, ht, hu, ?_, fun j hj => ?_, Frame.of_cons_sp ?_ (BitVec.eq_of_toNat_eq (husp.trans hsp'))⟩
  · rw [hupc, hsp', htop]
  · exact (stackSlot_congr hstack j).trans (hslots j hj)
  · exact (hcall.andThen hret).mono (by decide)

end Sys2Proof.Proofs

/-! PROOFS. The conditional skips (spec/41_skip.md): each is `skipIf` on a test, and the test decides the condition. -/

namespace Sys2Proof.Machine

open Sys2Proof.Safety

/-- A skip goes to p + 4 exactly when the condition its test decides holds (R331, R456). -/
theorem skipIf_pc_of_iff (s : State) {c : Bool} {p : Prop} [Decidable p] (h : c = true ↔ p) :
    (s.skipIf c).pc = if p then s.pc + 4 else s.pc + 2 :=
  if_congr h rfl rfl

theorem exec_skp_of_key_le {x : Reg} {s : State} (h : (s.readV x).toNat ≤ 15) :
    exec (.skp x) s = .next (s.skipIf (s.keyDown (s.readV x).toNat)) :=
  exec_skp_of_noFault (if_neg (Nat.not_lt.2 h))

theorem exec_sknp_of_key_le {x : Reg} {s : State} (h : (s.readV x).toNat ≤ 15) :
    exec (.sknp x) s = .next (s.skipIf (!s.keyDown (s.readV x).toNat)) :=
  exec_sknp_of_noFault (if_neg (Nat.not_lt.2 h))

end Sys2Proof.Machine

namespace Sys2Proof.Proofs

open Sys2Proof.Machine Sys2Proof.Safety

/-- Settles O26: the tests of equality and inequality of bytes decide the conditions, and the words are those of the
encoder. -/
theorem skipsOnImmediateAndInequality : Obligations.SkipsOnImmediateAndInequality := by
  intro x y kk s
  refine ⟨⟨_, rfl, skipIf_pc_of_iff s beq_iff_eq, frame_skipIf s _⟩,
    ⟨_, rfl, skipIf_pc_of_iff s bne_iff_ne, frame_skipIf s _⟩,
    ⟨_, rfl, skipIf_pc_of_iff s bne_iff_ne, frame_skipIf s _⟩, ?_, ?_, ?_⟩
  · exact decodeWord_encode (.seVxKk x kk)
  · exact decodeWord_encode (.sneVxKk x kk)
  · exact decodeWord_encode (.sneVxVy x y)

/-- Settles O27: a register equals itself, so the condition holds when x = y. -/
theorem skipOnEqualRegisters : Obligations.SkipOnEqualRegisters := by
  intro x y s
  have hpc := skipIf_pc_of_iff s (beq_iff_eq (a := s.readV x) (b := s.readV y))
  exact ⟨_, rfl, frame_skipIf s _, hpc, fun hxy => hpc.trans (if_pos (congrArg s.readV hxy))⟩

/-- Settles O28: a key code at most 15 raises no fault, and the test reads that key of the step's key vector. -/
theorem keySkipsTestTheKeyOfVx : Obligations.KeySkipsTestTheKeyOfVx := by
  intro x s hkey
  constructor
  · exact ⟨_, exec_skp_of_key_le hkey, frame_skipIf s _, skipIf_pc_of_iff s Iff.rfl⟩
  · exact ⟨_, exec_sknp_of_key_le hkey, frame_skipIf s _, skipIf_pc_of_iff s (Bool.not_eq_true' _).to_iff⟩

end Sys2Proof.Proofs

/-! PROOFS. Loads, arithmetic, logic, comparison and random (spec/42_alu.md): what each flag is as a number, what each of
the three forms of write answers, and from them each instruction. -/

namespace Sys2Proof.Safety

open Sys2Proof.Machine

theorem Frame.thenAdvance {c : List Part} {s t : State} (h : Frame c s t) : Frame (c ++ [.pc]) s t.advance :=
  (h.andThen (frame_advance t)).mono (by simp)

end Sys2Proof.Safety

namespace Sys2Proof.Machine

open Sys2Proof.Safety

/-! ### Flags as numbers -/

theorem toNat_flagByte (c : Bool) : (flagByte c).toNat = if c then 1 else 0 := by
  cases c <;> rfl

theorem toNat_flagByte_decide (p : Prop) [Decidable p] : (flagByte (decide p)).toNat = if p then 1 else 0 :=
  (toNat_flagByte _).trans (if_congr decide_eq_true_iff rfl rfl)

theorem toNat_carryFlag (a b : Byte) : (carryFlag a b).toNat = if 255 < a.toNat + b.toNat then 1 else 0 :=
  toNat_flagByte_decide _

theorem toNat_notBorrowFlag (e : Bool) (a b : Byte) :
    (notBorrowFlag e a b).toNat =
      if b.toNat < a.toNat then 1 else if a.toNat = b.toNat then (if e then 1 else 0) else 0 := by
  simp only [notBorrowFlag, BitVec.lt_def, ← BitVec.toNat_inj]
  split
  · rfl
  · split
    · exact toNat_flagByte e
    · rfl

/-- The low bit of a byte is what halving drops (R508). -/
theorem toNat_shrFlag (a : Byte) : (shrFlag a).toNat = a.toNat % 2 := by
  rw [shrFlag, BitVec.getLsbD, Nat.testBit_zero, toNat_flagByte_decide]
  split <;> omega

/-- The high bit of a byte is what doubling drops (R510). -/
theorem toNat_shlFlag (a : Byte) : (shlFlag a).toNat = a.toNat / 128 := by
  rw [shlFlag, BitVec.getLsbD, Nat.testBit_eq_decide_div_mod_eq, toNat_flagByte_decide]
  split <;> omega

/-! ### Results as numbers (R520) -/

theorem toNat_sub_byte (a b : Byte) : (a - b).toNat = (a.toNat + 256 - b.toNat) % 256 := by
  rw [BitVec.toNat_sub]
  omega

theorem toNat_shiftRight_one (a : Byte) : (a >>> 1).toNat = a.toNat / 2 :=
  BitVec.toNat_ushiftRight ..

theorem toNat_shiftLeft_one (a : Byte) : (a <<< 1).toNat = a.toNat * 2 % 256 :=
  (BitVec.toNat_shiftLeft ..).trans (congrArg (· % 256) (Nat.shiftLeft_eq _ _))

/-! ### The three forms of write

Every instruction of the family writes Vx, or VF, or Vx and then VF, and goes on at p + 2. -/

/-- What is left in Vx, bit by bit, by an instruction that writes Vx. -/
theorem exec_bits_of_writeV {i : Instr} {s : State} {x : Reg} {r : Byte} {bit : Nat → Bool}
    (he : exec i s = .next (s.writeV x r).advance) (hr : ∀ b, r.getLsbD b = bit b) :
    ∃ t, exec i s = .next t ∧ t.pc = s.pc + 2 ∧ Frame [.v x, .pc] s t ∧ ∀ b, (t.readV x).getLsbD b = bit b :=
  ⟨_, he, rfl, (frame_writeV s x r).thenAdvance, by simpa using hr⟩

/-- What is left in VF, as a number, by an instruction that writes VF alone. -/
theorem exec_flag_of_writeFlag {i : Instr} {s : State} {f : Byte} {n : Nat}
    (he : exec i s = .next (s.writeFlag f).advance) (hf : f.toNat = n) :
    ∃ t, exec i s = .next t ∧ t.pc = s.pc + 2 ∧ Frame [.v regF, .pc] s t ∧ (t.readV regF).toNat = n :=
  ⟨_, he, rfl, (frame_writeFlag s f).thenAdvance, by simpa [State.readV_writeFlag] using hf⟩

/-- What is left in Vx and VF, as numbers, by an instruction that writes Vx and then VF: the flag wins where x is F
(R321). -/
theorem exec_result_of_writeResultFlag {i : Instr} {s : State} {x : Reg} {r f : Byte} {m n : Nat}
    (he : exec i s = .next (s.writeResultFlag x r f).advance) (hr : r.toNat = m) (hf : f.toNat = n) :
    ∃ t, exec i s = .next t ∧ t.pc = s.pc + 2 ∧ (x ≠ regF → (t.readV x).toNat = m) ∧ (t.readV regF).toNat = n ∧
      Frame [.v x, .v regF, .pc] s t := by
  refine ⟨_, he, rfl, fun hx => ?_, ?_, (frame_writeResultFlag s x r f).thenAdvance⟩
  · simpa [State.readV_writeResultFlag, hx] using hr
  · simpa [State.readV_writeResultFlag] using hf

/-! ### 7xkk under each value of ADD_IMM_SETS_VF (R501) -/

theorem exec_addVxKk_with_flag (x : Reg) (kk : Byte) {s : State} (h : s.cfg.addImmSetsVf = true) :
    exec (.addVxKk x kk) s = .next (s.writeResultFlag x (s.readV x + kk) (carryFlag (s.readV x) kk)).advance :=
  congrArg _ (if_pos h)

theorem exec_addVxKk_without_flag (x : Reg) (kk : Byte) {s : State} (h : s.cfg.addImmSetsVf = false) :
    exec (.addVxKk x kk) s = .next (s.writeV x (s.readV x + kk)).advance :=
  congrArg _ (if_neg (Bool.eq_false_iff.1 h))

/-! ### Masks -/

/-- A byte is some byte under the mask kk exactly when its set bits lie inside kk: it is then itself under the mask. -/
theorem exists_and_eq_iff (kk b : Byte) : (∃ r, r &&& kk = b) ↔ ∀ k, b.getLsbD k = true → kk.getLsbD k = true := by
  constructor
  · rintro ⟨r, rfl⟩ k hk
    rw [BitVec.getLsbD_and, Bool.and_eq_true] at hk
    exact hk.2
  · intro h
    refine ⟨b, BitVec.eq_of_getLsbD_eq fun k _ => ?_⟩
    rw [BitVec.getLsbD_and, Bool.and_eq_left_iff_imp]
    exact h k

/-- The results of Cxkk over every input of the step are the bytes under the mask (R515). -/
theorem exists_input_rnd_iff (x : Reg) (kk b : Byte) (s : State) :
    (∃ (inp : Inputs) (t : State), exec (.rnd x kk) { s with supplied := [inp] } = .next t ∧ t.readV x = b) ↔
      ∃ r, r &&& kk = b := by
  constructor
  · rintro ⟨inp, _, ⟨⟩, rfl⟩
    exact ⟨inp.rand8, (State.readV_writeV_same _ x _).symm⟩
  · rintro ⟨r, rfl⟩
    exact ⟨{ rand8 := r, keys := 0, keyEvent := none }, _, rfl, State.readV_writeV_same _ x _⟩

end Sys2Proof.Machine

namespace Sys2Proof.Proofs

open Sys2Proof.Machine Sys2Proof.Safety

/-- Settles O39: the results are the bytes under the mask, and a byte is one exactly when it is left as it is by the
mask. -/
theorem randomResultsAreTheMaskedBytes : Obligations.RandomResultsAreTheMaskedBytes :=
  fun x kk b s => (exists_input_rnd_iff x kk b s).trans (exists_and_eq_iff kk b)

/-- Settles O29: the word is that of the encoder, and the write is of kk. -/
theorem loadImmediateWritesVx : Obligations.LoadImmediateWritesVx :=
  fun x kk s => ⟨decodeWord_encode (.ldVxKk x kk), _, rfl, State.readV_writeV_same s x kk, rfl,
    (frame_writeV s x kk).thenAdvance⟩

/-- Settles O30: the write is of Vy. -/
theorem loadRegisterCopiesVy : Obligations.LoadRegisterCopiesVy :=
  fun x y s => ⟨_, rfl, State.readV_writeV_same s x (s.readV y), rfl, (frame_writeV s x _).thenAdvance⟩

/-- Settles O31: with the parameter true the sum is written before its carry, with the parameter false alone. -/
theorem addImmediateWraps : Obligations.AddImmediateWraps := by
  intro x kk s
  have hsum : (s.readV x + kk).toNat = ((s.readV x).toNat + kk.toNat) % 256 := BitVec.toNat_add ..
  cases hcfg : s.cfg.addImmSetsVf with
  | true =>
    obtain ⟨t, ht, hpc, hx, hf, hframe⟩ :=
      exec_result_of_writeResultFlag (exec_addVxKk_with_flag x kk hcfg) hsum (toNat_carryFlag (s.readV x) kk)
    exact ⟨t, ht, hpc, fun h => hx (h.resolve_left (by decide)), fun _ => hf, hframe⟩
  | false =>
    refine ⟨_, exec_addVxKk_without_flag x kk hcfg, rfl, fun _ => ?_, nofun, (frame_writeV s x _).thenAdvance⟩
    rw [State.advance_readV, State.readV_writeV_same, hsum]

/-- Settles O32: the bits of an or, an and, an exclusive or of bytes. -/
theorem logicWorksBitByBit : Obligations.LogicWorksBitByBit := by
  intro x y s
  refine ⟨?_, ?_, ?_⟩
  · exact exec_bits_of_writeV rfl fun _ => BitVec.getLsbD_or
  · exact exec_bits_of_writeV rfl fun _ => BitVec.getLsbD_and
  · exact exec_bits_of_writeV rfl fun _ => BitVec.getLsbD_xor

/-- Settles O33: the sum, and then its carry. -/
theorem addSetsSumThenCarry : Obligations.AddSetsSumThenCarry :=
  fun _ _ _ => exec_result_of_writeResultFlag rfl (BitVec.toNat_add ..) (toNat_carryFlag ..)

/-- Settles O34: the difference, and then its not-borrow flag. -/
theorem subtractSetsStrictNotBorrow : Obligations.SubtractSetsStrictNotBorrow :=
  fun _ _ _ => exec_result_of_writeResultFlag rfl (toNat_sub_byte ..) (toNat_notBorrowFlag ..)

/-- Settles O35: the difference the other way round, and then its not-borrow flag. -/
theorem reverseSubtractSetsStrictNotBorrow : Obligations.ReverseSubtractSetsStrictNotBorrow :=
  fun _ _ _ => exec_result_of_writeResultFlag rfl (toNat_sub_byte ..) (toNat_notBorrowFlag ..)

/-- Settles O36: a shift by one halves or doubles, and the flag is the bit that drops out. -/
theorem shiftsMoveVxByOne : Obligations.ShiftsMoveVxByOne := by
  intro x y s
  constructor
  · exact exec_result_of_writeResultFlag rfl (toNat_shiftRight_one _) (toNat_shrFlag _)
  · exact exec_result_of_writeResultFlag rfl (toNat_shiftLeft_one _) (toNat_shlFlag _)

/-- Settles O37: each flag decides its comparison, which on bytes is that of their numbers. -/
theorem comparisonsStoreIntoVf : Obligations.ComparisonsStoreIntoVf := by
  intro x y s
  refine ⟨?_, ?_, ?_, ?_⟩ <;> exact exec_flag_of_writeFlag rfl (toNat_flagByte_decide _)

/-- Settles O38: the bits of the random byte under the mask. -/
theorem randomByteIsMasked : Obligations.RandomByteIsMasked :=
  fun _ _ _ => exec_bits_of_writeV rfl fun _ => BitVec.getLsbD_and

end Sys2Proof.Proofs

/-! PROOFS. The index register and memory (spec/43_index_memory.md): what a write of I, a store from I on and a load from I
on answer, and from them each instruction. -/

namespace Sys2Proof.Safety

@[simp] theorem i_mem_mayChange {i : Instr} {cfg : Config.Params} : Part.i ∈ mayChange i cfg ↔ writesI i = true := by
  simp [mayChange]

/-- `everyV` lists every register there is. -/
theorem v_mem_everyV (r : Reg) : Part.v r ∈ everyV :=
  List.mem_map.2 ⟨r.toNat, List.mem_range.2 r.isLt, by rw [BitVec.ofNat_toNat, BitVec.setWidth_eq]⟩

end Sys2Proof.Safety

namespace Sys2Proof.Machine

open Sys2Proof.Safety

/-! ### Writing I -/

/-- What is left in I, as a number, by an instruction that writes I. -/
theorem exec_index_of_writeI {i : Instr} {s : State} {a : Word} {n : Nat}
    (he : exec i s = .next (s.writeI a).advance) (ha : a.toNat = n) :
    ∃ t, exec i s = .next t ∧ t.i.toNat = n ∧ t.pc = s.pc + 2 ∧ Frame [.i, .pc] s t :=
  ⟨_, he, ha, rfl, (frame_writeI s a).thenAdvance⟩

theorem exec_ldsprt_of_digit_le {x : Reg} {s : State} (h : (s.readV x).toNat ≤ 15) :
    exec (.ldsprt x) s = .next (s.writeI (glyphAddr (s.readV x))).advance :=
  exec_ldsprt_of_noFault (if_neg (Nat.not_lt.2 h))

/-- The glyphs stand 5 bytes apart from address 0, and that of any byte value has an address below 2^16 (R602). -/
theorem toNat_glyphAddr (digit : Byte) : (glyphAddr digit).toNat = 5 * digit.toNat := by
  simp only [glyphAddr, Config.fontBase, Config.glyphBytes, BitVec.toNat_ofNat]
  omega

/-! ### Storing from I on (R603, R604) -/

/-- An instruction that stores bytes which fit in memory leaves the k-th at I + k, every other byte as it was. -/
theorem exec_bytes_of_storeAtI {i : Instr} {s : State} {bs : List Byte} (he : exec i s = .next (storeAtI i bs s))
    (h : inRange s bs.length) :
    ∃ t, exec i s = .next t ∧ t.pc = s.pc + 2 ∧ (∀ k b, bs[k]? = some b → t.readByte (s.indexAddr + k) = b) ∧
      (∀ a, a < s.indexAddr ∨ s.indexAddr + bs.length ≤ a → t.readByte a = s.readByte a) ∧
      Frame [.mem, .pc] s t := by
  obtain ⟨m, hm, -, hread⟩ := storeAtI_ok i s bs (h.imp_left List.length_eq_zero_iff.1)
  refine ⟨_, he.trans (congrArg _ hm), rfl, fun k b hk => ?_, fun a ha => (hread a).trans ?_,
    (frame_setMem s m).thenAdvance⟩
  · refine (hread (s.i.toNat + k)).trans ?_
    rw [if_pos (Nat.le_add_right _ _), Nat.add_sub_cancel_left, hk, Option.getD_some]
  · simp only [State.indexAddr] at ha
    split
    · rw [List.getElem?_eq_none (by omega), Option.getD_none]
    · rfl

/-! ### Loading from I on (R605) -/

theorem bytesAtI_getElem? (s : State) {n k : Nat} (h : k < n) :
    (bytesAtI s n)[k]? = some (s.readByte (s.indexAddr + k)) := by
  simp [bytesAtI, h]

theorem readV_writeRegs_of_lt {s : State} {bs : List Byte} {r : Reg} {b : Byte} (h : bs[r.toNat]? = some b) :
    (s.writeRegs bs).readV r = b := by
  rw [State.readV_writeRegs, h, Option.getD_some]

theorem readV_writeRegs_of_length_le {s : State} {bs : List Byte} {r : Reg} (h : bs.length ≤ r.toNat) :
    (s.writeRegs bs).readV r = s.readV r := by
  rw [State.readV_writeRegs, List.getElem?_eq_none h, Option.getD_none]

/-- A load writes V registers alone. -/
theorem frame_writeRegs_everyV (s : State) (bs : List Byte) : Frame everyV s (s.writeRegs bs) := by
  refine (frame_writeRegs s bs).mono fun p hp => ?_
  obtain ⟨r, -, rfl⟩ := List.mem_map.1 hp
  exact v_mem_everyV r

end Sys2Proof.Machine

namespace Sys2Proof.Proofs

open Sys2Proof.Machine Sys2Proof.Safety

/-- Settles O55: the frame lists I for Annn, Fx1E and Fx29 alone. -/
theorem onlyIndexInstructionsWriteI : Obligations.OnlyIndexInstructionsWriteI := by
  intro i s t hf h hi
  exact (exec_frame hf h).i (by simp [hi])

/-- Settles O40: the word is that of the encoder, and the write is of nnn. -/
theorem loadIndexWritesI : Obligations.LoadIndexWritesI :=
  fun nnn _ => ⟨decodeWord_encode (.ldi nnn), exec_index_of_writeI rfl (toNat_zextAddr nnn)⟩

/-- Settles O41: the sum of words is the sum of numbers modulo 2^16. -/
theorem addToIndexWrapsAtSixteenBits : Obligations.AddToIndexWrapsAtSixteenBits := by
  intro x s
  refine exec_index_of_writeI rfl ?_
  rw [BitVec.toNat_add, toNat_zextByte]

/-- Settles O42: a digit at most 15 raises no fault, and the write is of its glyph's address. -/
theorem fontLookupPointsAtTheGlyph : Obligations.FontLookupPointsAtTheGlyph :=
  fun _ _ hdigit => exec_index_of_writeI (exec_ldsprt_of_digit_le hdigit) (toNat_glyphAddr _)

/-- Settles O43: the bytes stored are the three digits, each below 2^8. -/
theorem bcdStoresThreeDigits : Obligations.BcdStoresThreeDigits := by
  intro x s hfits
  obtain ⟨t, ht, hpc, hbytes, hothers, hframe⟩ :=
    exec_bytes_of_storeAtI (i := .ldbcd x) (bs := bcdDigits (s.readV x)) rfl hfits
  have hdigit : ∀ k n, (bcdDigits (s.readV x))[k]? = some (BitVec.ofNat 8 n) → n < 256 →
      (t.readByte (s.indexAddr + k)).toNat = n := fun k n hk hn => by
    rw [hbytes k _ hk, BitVec.toNat_ofNat, Nat.mod_eq_of_lt hn]
  exact ⟨t, ht, hpc, hdigit 0 _ rfl (by omega), hdigit 1 _ rfl (by omega), hdigit 2 _ rfl (by omega), hothers, hframe⟩

/-- Settles O44: the bytes stored are V0 to Vx. -/
theorem dumpStoresV0ToVx : Obligations.DumpStoresV0ToVx := by
  intro x s hfits
  obtain ⟨t, ht, hpc, hbytes, hothers, hframe⟩ :=
    exec_bytes_of_storeAtI (i := .dumpreg x) (bs := s.regsTo x) rfl (by rwa [State.length_regsTo])
  rw [State.length_regsTo] at hothers
  refine ⟨t, ht, hpc, fun k hk => ?_, hothers, hframe⟩
  simpa using hbytes k.toNat _ (s.regsTo_getElem? x k.toNat hk)

/-- Settles O45: the registers below x + 1 take the bytes from I on, the others none. -/
theorem loadReadsV0ToVx : Obligations.LoadReadsV0ToVx := by
  intro x s hfits
  refine ⟨_, exec_ldreg_of_noFault (rangeFault_eq_none.2 hfits), rfl, fun k hk => ?_, fun k hk => ?_,
    (frame_writeRegs_everyV s _).thenAdvance⟩
  · exact readV_writeRegs_of_lt (bytesAtI_getElem? s (Nat.lt_succ_of_le hk))
  · exact readV_writeRegs_of_length_le ((length_bytesAtI s _).le.trans hk)

/-- Settles O46: the dump leaves I (O44), so the load reads, from the same addresses, the bytes the dump stored (O45). -/
theorem loadAfterDumpRestoresRegisters : Obligations.LoadAfterDumpRestoresRegisters := by
  intro x s hfits
  obtain ⟨t, ht, -, hstored, -, hframe⟩ := dumpStoresV0ToVx x s hfits
  refine ⟨t, ht, fun u hi hmem => ?_⟩
  have hi' : u.i = s.i := hi.trans (hframe.i (by decide))
  obtain ⟨r, hr, -, hloaded, hkept, -⟩ := loadReadsV0ToVx x u (by rwa [inRange, hi'])
  refine ⟨r, hr, fun k hk => ?_, hkept⟩
  calc r.readV k = u.readByte (u.indexAddr + k.toNat) := hloaded k hk
    _ = t.readByte (s.indexAddr + k.toNat) := by rw [hmem, State.indexAddr, hi', State.indexAddr]
    _ = s.readV k := hstored k hk

end Sys2Proof.Proofs

/-! PROOFS. Timers and the key wait (spec/44_timer_input.md): each answer of the event query as `exec` and the step
see it, and from them the wait, by induction on the inputs without an event. -/

namespace Sys2Proof.Machine

open Sys2Proof.Safety

/-! ### The timers (R820, R151) -/

/-- The tick takes one from DT, stopping at 0, as subtraction of natural numbers does (R820). -/
theorem toNat_timerTick_dt (s : State) : (timerTick s).dt.toNat = s.dt.toNat - 1 := by
  rw [timerTick_dt]
  split
  · next h => simp [h]
  · bv_omega

theorem soundOn_iff (s : State) : s.soundOn = true ↔ s.st.toNat ≠ 0 :=
  bne_iff_ne.trans (not_congr BitVec.toNat_inj.symm)

/-! ### The event query (R142, R653) -/

/-- A step for which the host has lined up inputs meets the first of them. -/
theorem input_of_supplied {s : State} {inp : Inputs} {rest : List Inputs} (h : s.supplied = inp :: rest) :
    s.input = inp := by
  rw [State.input, h]

theorem exec_getkey_of_no_event (x : Reg) {s : State} (h : s.input.keyEvent = none) : exec (.getkey x) s = .next s := by
  simp only [exec, execGetkey, h]

theorem exec_getkey_of_event (x : Reg) {s : State} {code : BitVec 4} (h : s.input.keyEvent = some code) :
    exec (.getkey x) s = .next (s.writeV x (code.setWidth 8)).advance := by
  simp only [exec, execGetkey, h]

/-- What Vx reads after it took a key code. -/
theorem toNat_readV_writeV_keyCode (s : State) (x : Reg) (code : BitVec 4) :
    ((s.writeV x (code.setWidth 8)).readV x).toNat = code.toNat := by
  rw [State.readV_writeV_same]
  exact BitVec.toNat_setWidth_of_le (by decide)

/-- A key wait that meets no event does nothing but tick: PC stays, and the next step fetches the same word (R653). -/
theorem step_getkey_of_no_event {s : State} {x : Reg} (h : canFetch s) (hi : decodeWord (wordAt s) = .ok (.getkey x))
    (hk : s.input.keyEvent = none) : step s = .next (endStep (timerTick s)) :=
  step_of_exec h hi (exec_getkey_of_no_event x hk)

/-- A key wait that meets an event stores its code after the tick and goes on (R653). -/
theorem step_getkey_of_event {s : State} {x : Reg} {code : BitVec 4} (h : canFetch s)
    (hi : decodeWord (wordAt s) = .ok (.getkey x)) (hk : s.input.keyEvent = some code) :
    step s = .next (endStep ((timerTick s).writeV x (code.setWidth 8)).advance) :=
  step_of_exec h hi (exec_getkey_of_event x hk)

end Sys2Proof.Machine

namespace Sys2Proof.Proofs

open Sys2Proof.Machine Sys2Proof.Safety

/-- Settles O20, by induction on the inputs without an event: a waiting step only ticks, so the wait goes on from a
state that differs in DT, ST and the model's own inputs alone. -/
theorem keyWaitSpinsUntilTheEvent : Obligations.KeyWaitSpinsUntilTheEvent := by
  intro s x waits rest last code hs hi hsup hwaits hlast
  induction waits generalizing s with
  | nil =>
    have hk : s.input.keyEvent = some code := by rw [input_of_supplied hsup, hlast]
    exact ⟨_, (run_succ_next 0 (step_getkey_of_event hs hi hk)).trans (run_zero _),
      toNat_readV_writeV_keyCode (timerTick s) x code, fun r hr => (timerTick s).readV_writeV_ne _ hr, rfl,
      toNat_timerTick_dt s, rfl, rfl, rfl, rfl, fun _ => rfl⟩
  | cons wait waits ih =>
    obtain ⟨hwait, hwaits⟩ := List.forall_mem_cons.1 hwaits
    have hk : s.input.keyEvent = none := by rw [input_of_supplied hsup, hwait]
    obtain ⟨t, ht, hx, hothers, hpc, hdt, hrest⟩ :=
      ih (endStep (timerTick s)) hs hi (congrArg List.tail hsup) hwaits
    refine ⟨t, (run_succ_next _ (step_getkey_of_no_event hs hi hk)).trans ht, hx, hothers, hpc, ?_, hrest⟩
    rw [hdt, endStep_dt, toNat_timerTick_dt, List.length_cons]
    omega

/-- Settles O48: each instruction writes one register and goes on, and `sound_on` tests the ST it leaves. -/
theorem timerInstructionsMoveDtAndSt : Obligations.TimerInstructionsMoveDtAndSt := by
  intro x s
  refine ⟨⟨_, rfl, ?_, rfl, ?_⟩, ⟨_, rfl, rfl, rfl, ?_⟩, ⟨_, rfl, rfl, rfl, ?_, ?_⟩⟩
  · exact State.readV_writeV_same s x s.dt
  · exact (frame_writeV s x s.dt).thenAdvance
  · exact (frame_setDt s (s.readV x)).thenAdvance
  · exact (frame_setSt s (s.readV x)).thenAdvance
  · exact soundOn_iff _

/-- Settles O49, one case per answer of the event query. -/
theorem keyWaitStoresTheEventOrStays : Obligations.KeyWaitStoresTheEventOrStays := by
  intro x s
  cases hk : s.input.keyEvent with
  | none => exact ⟨s, exec_getkey_of_no_event x hk, rfl, .refl [] s⟩
  | some code =>
    exact ⟨_, exec_getkey_of_event x hk, toNat_readV_writeV_keyCode s x code, rfl, (frame_writeV s x _).thenAdvance⟩

end Sys2Proof.Proofs

/-! PROOFS. Display (spec/45_display.md): a drawing toggles the pixels it covers and notes a collision, drawings of
disjoint pixels add up, and so the rows of a sprite make the sprite. -/

namespace Sys2Proof.Machine

open Sys2Proof.Safety

/-! ### Drawings (R701) -/

/-- Canvas `d` is `c` after a drawing of the pixels of `cover`: each of them is toggled, every other is as it was, and a
collision is noted when one was noted before or a pixel of `cover` was on. -/
structure Draws (cover : Fin 64 → Fin 32 → Prop) (c d : Canvas) : Prop where
  toggled : ∀ px py, cover px py → pixel d.1 px py = !pixel c.1 px py
  kept : ∀ px py, ¬cover px py → pixel d.1 px py = pixel c.1 px py
  collision : d.2 = true ↔ c.2 = true ∨ ∃ px py, cover px py ∧ pixel c.1 px py = true

theorem Draws.of_empty {p : Fin 64 → Fin 32 → Prop} (c : Canvas) (h : ∀ px py, ¬p px py) : Draws p c c where
  toggled px py hp := absurd hp (h px py)
  kept _ _ _ := rfl
  collision := ⟨.inl, fun hc => hc.resolve_right fun ⟨px, py, hp, _⟩ => h px py hp⟩

theorem Draws.congr {p q : Fin 64 → Fin 32 → Prop} {c d : Canvas} (h : Draws p c d) (hpq : ∀ px py, p px py ↔ q px py) :
    Draws q c d := by
  obtain rfl : p = q := funext₂ fun px py => propext (hpq px py)
  exact h

/-- Two drawings that share no pixel are the drawing of the pixels of both: the second finds its pixels as they were
before the first. -/
theorem Draws.andThen {p q : Fin 64 → Fin 32 → Prop} {c d e : Canvas} (hp : Draws p c d) (hq : Draws q d e)
    (hpq : ∀ px py, p px py → ¬q px py) : Draws (fun px py => p px py ∨ q px py) c e where
  toggled px py h := by
    rcases h with h | h
    · rw [hq.kept px py (hpq px py h), hp.toggled px py h]
    · rw [hq.toggled px py h, hp.kept px py fun h' => hpq px py h' h]
  kept px py h := by
    obtain ⟨hnp, hnq⟩ := not_or.1 h
    rw [hq.kept px py hnq, hp.kept px py hnp]
  collision := by
    have hseen : ∀ px py, (q px py ∧ pixel d.1 px py = true) ↔ (q px py ∧ pixel c.1 px py = true) := fun px py =>
      and_congr_right fun h => by rw [hp.kept px py fun h' => hpq px py h' h]
    simp only [hq.collision, hp.collision, hseen, or_and_right, exists_or, or_assoc]

/-! ### The rows of a sprite (R701, R702) -/

theorem drawCols_draws (vx vy b : Byte) (row : Nat) (c : Canvas) :
    Draws (colsCover vx vy b row 0 8) c (drawCols vx vy b row 0 8 c) where
  toggled px py := (pixel_drawCols vx vy b row 8 0 (Nat.le_refl 8) c px py).1
  kept px py := (pixel_drawCols vx vy b row 8 0 (Nat.le_refl 8) c px py).2
  collision := drawCols_collision vx vy b row 8 0 (Nat.le_refl 8) c

/-- One of the rows `row`, `row + 1`, ..., a byte of the list each, has a set bit for the pixel. -/
def rowsCover (vx vy : Byte) (row : Nat) (bs : List Byte) (px : Fin 64) (py : Fin 32) : Prop :=
  ∃ k b, bs[k]? = some b ∧ colsCover vx vy b (row + k) 0 8 px py

theorem rowsCover_cons (vx vy : Byte) (row : Nat) (b : Byte) (bs : List Byte) (px : Fin 64) (py : Fin 32) :
    rowsCover vx vy row (b :: bs) px py ↔ colsCover vx vy b row 0 8 px py ∨ rowsCover vx vy (row + 1) bs px py := by
  constructor
  · rintro ⟨k, b', hk, hcover⟩
    cases k with
    | zero =>
      cases hk
      exact .inl hcover
    | succ k => exact .inr ⟨k, b', hk, by rwa [Nat.add_right_comm]⟩
  · rintro (hcover | ⟨k, b', hk, hcover⟩)
    · exact ⟨0, b, rfl, hcover⟩
    · exact ⟨k + 1, b', hk, by rwa [Nat.add_right_comm] at hcover⟩

/-- A row shares no pixel with the rows below it, as long as they wrap round the screen less than once. -/
theorem not_rowsCover_below {vx vy b : Byte} {row : Nat} {bs : List Byte} (hlen : bs.length < 32) {px : Fin 64}
    {py : Fin 32} (h : colsCover vx vy b row 0 8 px py) : ¬rowsCover vx vy (row + 1) bs px py := by
  obtain ⟨_, -, -, -, -, hrow⟩ := h
  rintro ⟨k, _, hk, _, -, -, -, -, hrow'⟩
  have hklt : k < bs.length := (List.getElem?_eq_some_iff.1 hk).1
  omega

theorem drawRows_draws (vx vy : Byte) (row : Nat) (bs : List Byte) (hlen : bs.length ≤ 32) (c : Canvas) :
    Draws (rowsCover vx vy row bs) c (drawRows vx vy row bs c) := by
  induction bs generalizing row c with
  | nil => exact .of_empty c fun _ _ ⟨_, _, hk, _⟩ => by cases hk
  | cons b bs ih =>
    refine Draws.congr ?_ fun px py => (rowsCover_cons vx vy row b bs px py).symm
    exact (drawCols_draws vx vy b row c).andThen (ih (row + 1) (Nat.le_of_succ_le hlen) _)
      fun _ _ => not_rowsCover_below hlen

/-! ### The sprite (R701 to R704) -/

/-- The rows made of the n bytes at I cover what the sprite covers. -/
theorem rowsCover_bytesAtI (s : State) (vx vy : Byte) (n : Nat) (px : Fin 64) (py : Fin 32) :
    rowsCover vx vy 0 (bytesAtI s n) px py ↔ spriteCovers s vx vy n px py := by
  constructor
  · rintro ⟨k, b, hk, col, -, hcol, hbit, hx, hy⟩
    have hkn : k < n := by simpa using (List.getElem?_eq_some_iff.1 hk).1
    cases (bytesAtI_getElem? s hkn).symm.trans hk
    exact ⟨k, col, hkn, by omega, hbit, hx, by rwa [Nat.zero_add] at hy⟩
  · rintro ⟨k, col, hkn, hcol, hbit, hx, hy⟩
    exact ⟨k, _, bytesAtI_getElem? s hkn, col, by omega, by omega, hbit, hx, by rwa [Nat.zero_add]⟩

/-- Dxyn whose bytes lie in memory draws the sprite on FB, with no collision noted before, and writes the canvas. -/
theorem exec_drw_draws (x y : Reg) {n : Nibble} {s : State} (h : inRange s n.toNat) :
    ∃ c, exec (.drw x y n) s = .next (s.writeCanvas c).advance ∧
      Draws (spriteCovers s (s.readV x) (s.readV y) n.toNat) (s.fb, false) c := by
  have hlen : (bytesAtI s n.toNat).length ≤ 32 := by
    rw [length_bytesAtI]
    omega
  exact ⟨_, exec_drw_of_noFault (rangeFault_eq_none.2 h),
    (drawRows_draws _ _ 0 _ hlen _).congr (rowsCover_bytesAtI s _ _ _)⟩

/-- What a sprite covers depends on I and memory alone. -/
theorem spriteCovers_congr {s t : State} (hi : t.i = s.i) (hmem : ∀ a, t.readByte a = s.readByte a) (vx vy : Byte)
    (n : Nat) : spriteCovers t vx vy n = spriteCovers s vx vy n := by
  funext px py
  simp only [spriteCovers, hi, hmem]

/-- What VF reads after a canvas is written. -/
theorem toNat_readV_writeCanvas_regF (s : State) (c : Canvas) :
    ((s.writeCanvas c).readV regF).toNat = if c.2 then 1 else 0 := by
  rw [State.readV_writeCanvas, if_pos rfl, toNat_flagByte]

end Sys2Proof.Machine

namespace Sys2Proof.Proofs

open Sys2Proof.Machine Sys2Proof.Safety

/-- Settles O51: the rows of the sprite are a drawing of what it covers, and VF is the collision that drawing notes. -/
theorem drawTogglesExactlyTheSprite : Obligations.DrawTogglesExactlyTheSprite := by
  intro x y n s hfits
  obtain ⟨c, hc, hdraw⟩ := exec_drw_draws x y hfits
  refine ⟨_, hc, hdraw.toggled, hdraw.kept, fun hon => ?_, fun hoff => ?_, rfl,
    (frame_writeCanvas s c).thenAdvance.mono (by simp)⟩
  · have hcollides : c.2 = true := hdraw.collision.2 (.inr hon)
    rw [State.advance_readV, toNat_readV_writeCanvas_regF, if_pos hcollides]
  · have hclear : ¬c.2 = true := by
      rw [hdraw.collision]
      rintro (h | ⟨px, py, hcover, hpx⟩)
      · cases h
      · exact absurd hpx (by simp [hoff px py hcover])
    rw [State.advance_readV, toNat_readV_writeCanvas_regF, if_neg hclear]

/-- Settles O52: the first draw leaves the sprite and its coordinates, so the second toggles the same pixels (O51). -/
theorem drawingTwiceRestoresThePixels : Obligations.DrawingTwiceRestoresThePixels := by
  intro x y n s hx hy hfits
  obtain ⟨t, ht, htoggled, hkept, -, -, -, hframe⟩ := drawTogglesExactlyTheSprite x y n s hfits
  have hi : t.i = s.i := hframe.i (by decide)
  have hcover : spriteCovers t (t.readV x) (t.readV y) n.toNat = spriteCovers s (s.readV x) (s.readV y) n.toNat := by
    rw [hframe.v x (by simp [hx]), hframe.v y (by simp [hy]), spriteCovers_congr hi (hframe.mem (by decide))]
  obtain ⟨u, hu, htoggled', hkept', hcollides, hclear, -, -⟩ :=
    drawTogglesExactlyTheSprite x y n t (by rwa [inRange, hi])
  rw [hcover] at htoggled' hkept' hcollides hclear
  refine ⟨t, u, ht, hu, fun px py => ?_, fun ⟨px, py, hc, hoff⟩ => ?_, fun hflag => ?_⟩
  · by_cases hc : spriteCovers s (s.readV x) (s.readV y) n.toNat px py
    · rw [htoggled' px py hc, htoggled px py hc, Bool.not_not]
    · rw [hkept' px py hc, hkept px py hc]
  · exact hcollides ⟨px, py, hc, by rw [htoggled px py hc, hoff, Bool.not_false]⟩
  · by_contra hnone
    have hzero : (u.readV regF).toNat = 0 := hclear fun px py hc => by
      rw [htoggled px py hc, Bool.not_eq_false']
      exact eq_true_of_ne_false fun hoff => hnone ⟨px, py, hc, hoff⟩
    omega

/-- Settles O50: encoding undoes decoding, so no other word decodes to the clear. -/
theorem clearTurnsEveryPixelOff : Obligations.ClearTurnsEveryPixelOff := by
  refine ⟨fun w => ⟨fun h => (encode_of_decodeWord h).symm, ?_⟩, fun s =>
    ⟨_, rfl, pixel_clearFb, rfl, (frame_setFb s clearFb).thenAdvance⟩⟩
  rintro rfl
  exact decodeWord_encode .cls

end Sys2Proof.Proofs

/-! PROOFS. Exceptions (spec/60_exceptions.md): STATUS after a fault of the execute phase and after one of the fetch, and
the timers over a step. -/

namespace Sys2Proof.Machine

open Sys2Proof.Safety

/-! ### STATUS after a fault of the execute phase (R800, R804) -/

/-- An access of n bytes from I that leaves memory has a fault (R804, R212). -/
theorem rangeFault_of_not_inRange {s : State} {n : Nat} (h : ¬inRange s n) :
    rangeFault s n = some (.memRange, max s.i.toNat 0x1000) := if_neg h

theorem exec_status_of_faultOf_some {i : Instr} {s : State} {c : Cause} {a : Nat} (h : faultOf i s = some (c, a)) :
    ∃ t, exec i s = .next t ∧ t.status = faulted c s.pc (encode i) a :=
  ⟨_, exec_of_faultOf_some h, rfl⟩

/-- The status port shows the code of the cause, PC, the word and the address of a fault (R150, R801). -/
theorem exec_statusPort_of_faultOf_some {i : Instr} {s : State} {c : Cause} {a : Nat} (h : faultOf i s = some (c, a)) :
    ∃ t, exec i s = .next t ∧ t.statusPort = (true, causeCode c, s.pc, encode i, BitVec.ofNat 16 a) :=
  ⟨_, exec_of_faultOf_some h, rfl⟩

/-! ### The tick (R820, R821) -/

/-- The tick takes one from ST, stopping at 0, where ST_COUNTS_DOWN (R821). -/
theorem toNat_timerTick_st (s : State) :
    (timerTick s).st.toNat = if s.cfg.stCountsDown then s.st.toNat - 1 else s.st.toNat := by
  rw [timerTick_st]
  cases s.cfg.stCountsDown with
  | false => rfl
  | true =>
    change (if s.st != 0 then s.st - 1 else s.st).toNat = s.st.toNat - 1
    split
    · next h =>
      have hst : s.st ≠ 0 := bne_iff_ne.1 h
      bv_omega
    · next h =>
      have hst : s.st = 0 := by simpa using h
      simp [hst]

theorem frame_timerTick (s : State) : Frame [.dt, .st] s (timerTick s) :=
  (frame_setSt s (timerTick s).st).andThen (frame_setDt _ (timerTick s).dt)

/-- The faults of an instruction test no timer, so the tick before it leaves them (R330). -/
theorem faultOf_timerTick (i : Instr) (s : State) : faultOf i (timerTick s) = faultOf i s := rfl

end Sys2Proof.Machine

namespace Sys2Proof.Safety

open Sys2Proof.Machine

@[simp] theorem dt_mem_mayChange {i : Instr} {cfg : Config.Params} : Part.dt ∈ mayChange i cfg ↔ writesDt i = true := by
  simp [mayChange]

@[simp] theorem st_mem_mayChange {i : Instr} {cfg : Config.Params} : Part.st ∈ mayChange i cfg ↔ writesSt i = true := by
  simp [mayChange]

theorem writesDt_iff {i : Instr} : writesDt i = true ↔ ∃ x, i = .ldDtVx x := by
  cases i <;> simp [writesDt]

theorem writesSt_iff {i : Instr} : writesSt i = true ↔ ∃ x, i = .ldStVx x := by
  cases i <;> simp [writesSt]

end Sys2Proof.Safety

namespace Sys2Proof.Proofs

open Sys2Proof.Machine Sys2Proof.Safety

/-- Settles O11: the instruction runs after the tick, and its frame lists DT for Fx15 and ST for Fx18 alone. -/
theorem timersChangeOnlyByTickAndTimerWrites : Obligations.TimersChangeOnlyByTickAndTimerWrites := by
  intro s i hs hi hf
  obtain ⟨t, ht, hframe⟩ := frame_of_noFault ((faultOf_timerTick i s).trans hf)
  refine ⟨endStep t, step_of_exec hs hi ht, ?_, ?_⟩
  · rw [endStep_dt]
    split
    · cases ht
      rfl
    · next hother =>
      rw [hframe.dt (by simpa [writesDt_iff] using hother), toNat_timerTick_dt]
  · rw [endStep_st]
    split
    · cases ht
      rfl
    · next hother =>
      rw [hframe.st (by simpa [writesSt_iff] using hother), toNat_timerTick_st]

/-- Settles O13: a core that cannot fetch has one of the two faults of the fetch, the misaligned one where PC is odd. -/
theorem fetchFaultsInPriorityOrder : Obligations.FetchFaultsInPriorityOrder := by
  intro s hs hcannot
  obtain ⟨-, hpc, hodd⟩ | ⟨hf, ho, hp⟩ | ⟨hf, -, hodd⟩ := fetch_cases s
  · exact absurd ⟨hs, hpc, hodd⟩ hcannot
  · rw [if_pos ⟨ho, hp⟩]
    exact step_status_of_fetch_error hs hf
  · have haligned : ¬(s.cfg.oddPcFaults = true ∧ s.pc.toNat % 2 = 1) := fun ⟨ho, hp⟩ => by
      have heven := hodd ho
      omega
    rw [if_neg haligned]
    exact step_status_of_fetch_error hs hf

/-- Settles O15: a listed fault is raised, and an instruction without one keeps STATUS with its frame. -/
theorem executeFaultsAreTheListedOnes : Obligations.ExecuteFaultsAreTheListedOnes := by
  intro i s
  cases hf : faultOf i s with
  | some f => exact exec_status_of_faultOf_some hf
  | none =>
    obtain ⟨t, ht, hframe⟩ := frame_of_noFault hf
    exact ⟨t, ht, hframe.status⟩

/-- Settles O47: the fault listed for each of the four accesses is that of its bytes from I on. -/
theorem dataAccessBeyondMemoryHalts : Obligations.DataAccessBeyondMemoryHalts := by
  intro x y n s
  refine ⟨fun h => ?_, fun h => ?_, fun h => ?_, fun h => ?_⟩ <;>
    exact exec_status_of_faultOf_some (rangeFault_of_not_inRange h)

/-- Settles O10: the tick is a write of ST and one of DT. -/
theorem tickCountsDownToZero : Obligations.TickCountsDownToZero :=
  fun s => ⟨toNat_timerTick_dt s, toNat_timerTick_st s, frame_timerTick s⟩

/-- Settles O16: in each state the table of causes lists the fault, whose code the port shows. -/
theorem statusPortShowsTheCauseCode : Obligations.StatusPortShowsTheCauseCode := by
  intro s
  refine ⟨fun nnn hsp => ?_, fun hsp => ?_, fun x hI => ?_, fun x hx => ?_, fun x hx => ?_⟩
  · exact exec_statusPort_of_faultOf_some (i := .call nnn) (if_pos hsp)
  · exact exec_statusPort_of_faultOf_some (i := .ret) (if_pos hsp)
  · have hf : faultOf (.ldbcd x) s = some (.memRange, 0x1000) :=
      (rangeFault_of_not_inRange (by omega)).trans (by rw [hI]; rfl)
    exact exec_statusPort_of_faultOf_some hf
  · exact exec_statusPort_of_faultOf_some (i := .skp x) (if_pos hx)
  · exact exec_statusPort_of_faultOf_some (i := .ldsprt x) (if_pos hx)

end Sys2Proof.Proofs

/-! PROOFS. Reset, the host's load and the end of a run (spec/70_reset_and_hazards.md): what memory reads after reset, the
load as writes of the memory unit, the first end of a run by induction on the bound, and the jump to itself. -/

namespace Sys2Proof.Machine

open Sys2Proof.Safety

/-! ### Memory after reset (R901, R902) -/

theorem Memory.unlisted_of_lt (font : Vector Byte 80) {a : Nat} (h : a < 80) : Memory.unlisted font a = font[a] :=
  dif_pos h

theorem Memory.unlisted_of_le (font : Vector Byte 80) {a : Nat} (h : 80 ≤ a) : Memory.unlisted font a = 0 :=
  dif_neg (Nat.not_lt.2 h)

theorem memAtReset_resetWith (cfg : Config.Params) : memAtReset (State.resetWith cfg) :=
  ⟨fun _ _ _ _ => Memory.unlisted_of_lt cfg.font (by omega), fun _ ha _ => Memory.unlisted_of_le cfg.font ha⟩

/-! ### The load (R910) -/

/-- A load of bytes that all lie in the array writes them as the memory unit does: no address leaves its 12 bits. -/
theorem memWrites_eq_loadFrom (s : State) (a : Nat) (bs : List Byte) (h : a + bs.length ≤ 0x1000) :
    memWrites s a bs = .ok (loadFrom s a bs) := by
  induction bs generalizing s a with
  | nil => rfl
  | cons b bs ih =>
    rw [List.length_cons] at h
    have ha : a < Config.memSize := show a < 0x1000 by omega
    have haddr : (BitVec.ofNat 12 a).toNat = a := Nat.mod_eq_of_lt ha
    rw [memWrites, memWrite, if_pos ha, loadFrom, State.loadByte, haddr]
    exact ih _ (a + 1) (by omega)

/-- A load inside the array changes memory alone, and in it the bytes of the image alone. -/
theorem loadFrom_eq_setMem (s : State) (a : Nat) (bs : List Byte) (h : a + bs.length ≤ 0x1000) :
    ∃ m, loadFrom s a bs = s.setMem m ∧
      ∀ b, (s.setMem m).readByte b = if a ≤ b then bs[b - a]?.getD (s.readByte b) else s.readByte b := by
  obtain ⟨m, hm, -, hread⟩ := memWrites_ok s bs a (.inr h)
  exact ⟨m, Except.ok.inj ((memWrites_eq_loadFrom s a bs h).symm.trans hm), hread⟩

theorem loadImage_of_length_le (s : State) {image : List Byte} (h : image.length ≤ 0xE00) :
    s.loadImage image = some (loadFrom s 0x200 image) := if_pos h

theorem loadImage_of_length_gt (s : State) {image : List Byte} (h : 0xE00 < image.length) :
    s.loadImage image = none := if_neg (Nat.not_le.2 h)

/-! ### The end of a run (R914) -/

/-- The end of a run in a state is the bad one of a halted state or the idle one of a self-jump. -/
theorem State.endKind_eq_some_iff (s : State) (e : RunEnd) :
    s.endKind = some e ↔ e = .bad ∧ bad s ∨ e = .idle ∧ idle s := by
  cases e with
  | bad => simp [State.endKind_bad]
  | idle => simp [State.endKind_idle]

theorem State.endKind_eq_none_iff (s : State) : s.endKind = none ↔ ¬bad s ∧ ¬idle s := by
  rw [Option.eq_none_iff_forall_ne_some, ← State.endKind_bad, ← State.endKind_idle]
  exact ⟨fun h => ⟨h .bad, h .idle⟩, fun ⟨hbad, hidle⟩ e => match e with
    | .bad => hbad
    | .idle => hidle⟩

/-- The run from `s` has the end `e` in the state `t` that `j` steps lead to, and none in a state before it. -/
def FirstEnd (j : Nat) (s : State) (e : RunEnd) (t : State) : Prop :=
  Host.Core.run core j s = .next t ∧ t.endKind = some e ∧
    ∀ i, i < j → ∀ u, Host.Core.run core i s = .next u → u.endKind = none

theorem firstEnd_iff {s t : State} {e : RunEnd} {j : Nat} :
    FirstEnd j s e t ↔ Host.Core.run core j s = .next t ∧ (e = .bad ∧ bad t ∨ e = .idle ∧ idle t) ∧
      ∀ i, i < j → ∀ u, Host.Core.run core i s = .next u → ¬bad u ∧ ¬idle u :=
  and_congr_right' (and_congr (t.endKind_eq_some_iff e) (forall₄_congr fun _ _ u _ => State.endKind_eq_none_iff u))

theorem firstEnd_zero {s t : State} {e : RunEnd} : FirstEnd 0 s e t ↔ s = t ∧ s.endKind = some e := by
  constructor
  · rintro ⟨hrun, hend, -⟩
    cases hrun
    exact ⟨rfl, hend⟩
  · rintro ⟨rfl, hend⟩
    exact ⟨run_zero s, hend, fun i hi => absurd hi (Nat.not_lt_zero i)⟩

/-- A later first end is no end here and the first end of the run from the next state. -/
theorem firstEnd_succ {s t u : State} {e : RunEnd} {j : Nat} (hu : step s = .next u) :
    FirstEnd (j + 1) s e t ↔ s.endKind = none ∧ FirstEnd j u e t := by
  constructor
  · rintro ⟨hrun, hend, hfirst⟩
    refine ⟨hfirst 0 (Nat.succ_pos j) s (run_zero s), (run_succ_next j hu).symm.trans hrun, hend, fun i hi v hv => ?_⟩
    exact hfirst (i + 1) (Nat.succ_lt_succ hi) v ((run_succ_next i hu).trans hv)
  · rintro ⟨hnone, hrun, hend, hfirst⟩
    refine ⟨(run_succ_next j hu).trans hrun, hend, fun i hi v hv => ?_⟩
    cases i with
    | zero =>
      cases hv
      exact hnone
    | succ i => exact hfirst i (Nat.lt_of_succ_lt_succ hi) v ((run_succ_next i hu).symm.trans hv)

/-- A state that has an end is the first end of the run from it. -/
theorem firstEnd_of_endKind {s t : State} {e e' : RunEnd} {j : Nat} (h : s.endKind = some e) :
    FirstEnd j s e' t ↔ j = 0 ∧ e = e' ∧ s = t := by
  cases j with
  | zero => simp [firstEnd_zero, h, and_comm]
  | succ j =>
    obtain ⟨u, hu⟩ := step_next s
    simp [firstEnd_succ hu, h]

/-- The computed end of a run is its first end, where that comes within the bound: by induction on the bound, along the
run. -/
theorem endWithin_eq_some_iff (k : Nat) (s : State) (e : RunEnd) (t : State) :
    endWithin k s = some (e, t) ↔ ∃ j, j ≤ k ∧ FirstEnd j s e t := by
  induction k generalizing s with
  | zero =>
    cases hs : s.endKind with
    | some e' => simp [endWithin_here hs, firstEnd_of_endKind hs]
    | none => simp [endWithin_zero hs, firstEnd_zero, hs]
  | succ k ih =>
    cases hs : s.endKind with
    | some e' => simp [endWithin_here hs, firstEnd_of_endKind hs]
    | none =>
      obtain ⟨u, hu⟩ := step_next s
      have hlater : ¬FirstEnd 0 s e t := by simp [firstEnd_zero, hs]
      rw [endWithin_succ hs hu, ih u]
      constructor
      · rintro ⟨j, hj, hfirst⟩
        exact ⟨j + 1, Nat.succ_le_succ hj, (firstEnd_succ hu).2 ⟨hs, hfirst⟩⟩
      · rintro ⟨j, hj, hfirst⟩
        cases j with
        | zero => exact absurd hfirst hlater
        | succ j => exact ⟨j, Nat.le_of_succ_le_succ hj, ((firstEnd_succ hu).1 hfirst).2⟩

/-! ### The jump to itself (R402, R914) -/

/-- A step of an idle core that can fetch only ticks: the jump leaves PC where it is. -/
theorem step_of_idle {s : State} (hidle : idle s) (h : canFetch s) : step s = .next (endStep (timerTick s)) := by
  obtain ⟨-, -, nnn, hw, hn⟩ := hidle
  have htarget : zextAddr nnn = (timerTick s).pc := BitVec.eq_of_toNat_eq ((toNat_zextAddr nnn).trans hn)
  have hexec : exec (.jp nnn) (timerTick s) = .next ((timerTick s).jump (zextAddr nnn)) := rfl
  rw [htarget] at hexec
  exact step_of_exec h (by rw [hw, decodeWord_encode]) hexec

end Sys2Proof.Machine

namespace Sys2Proof.Proofs

open Sys2Proof.Machine Sys2Proof.Safety

/-- Settles O7: memory lists nothing after reset, so every address reads its reset contents. -/
theorem resetCopiesFontIntoZeroedMemory : Obligations.ResetCopiesFontIntoZeroedMemory :=
  ⟨memAtReset_resetWith, fun s => memAtReset_resetWith s.cfg⟩

/-- Settles O8: an image of at most 0xE00 bytes ends inside the array, where the load writes its bytes alone. -/
theorem loadedImageStandsAtLoadBase : Obligations.LoadedImageStandsAtLoadBase := by
  refine fun s image => ⟨fun hlen => ?_, loadImage_of_length_gt s⟩
  obtain ⟨m, hm, hread⟩ := loadFrom_eq_setMem s 0x200 image (by omega)
  refine ⟨s.setMem m, by rw [loadImage_of_length_le s hlen, hm], fun k hk => ?_, fun a ha => ?_, frame_setMem s m⟩
  · rw [hread, if_pos (Nat.le_add_right _ _), Nat.add_sub_cancel_left, List.getElem?_eq_getElem hk, Option.getD_some]
  · rw [hread]
    split
    · rw [List.getElem?_eq_none (by omega), Option.getD_none]
    · rfl

/-- Settles O19: the end of a run is its first end, and an idle step is a tick, after which the core is idle still. -/
theorem runEndsAtFirstEndAndIdleChangesOnlyTimers : Obligations.RunEndsAtFirstEndAndIdleChangesOnlyTimers := by
  refine ⟨fun k s e t => ?_, fun s hidle h => ⟨_, step_of_idle hidle h, frame_timerTick s, hidle, h⟩⟩
  exact (endWithin_eq_some_iff k s e t).trans (exists_congr fun _ => and_congr_right' firstEnd_iff)

end Sys2Proof.Proofs
